-- ==== Sys2Proof/Word.lean ====
section
/-!
DEFINITION. The data types of the block (00_scope.md rule R8, 10_state.md rule R14): bytes, register words, 32-bit
patterns, register pairs, and the four formats as a closed enumeration.
-/
namespace Sys2Proof

/-- A byte of a frame or of the configuration strap. -/
abbrev Byte := BitVec 8

/-- R8 `Word16`: one register word of a RegisterPair, an unsigned 16-bit value (`WORD_W` = 16, R5). -/
abbrev Word16 := BitVec 16

/-- R8 `Pattern32`: the bits of a Float32Value, never interpreted (R68; `VALUE_W` = 32, R5). -/
abbrev Pattern32 := BitVec 32

/-- R8 `RegisterPair`: `R0` is first in transmission/storage order, `R1` second (`PAIR_N` = 2, R5). -/
structure RegisterPair where
  r0 : Word16
  r1 : Word16
deriving DecidableEq, Repr

/-- R14, R15: the four formats, a closed enumeration; FORMAT_k has code k-1 (`formatCode` in Decode.lean). -/
inductive FloatFormat where
  /-- little-endian bytes, words swapped -/
  | format1
  /-- little-endian bytes, words in natural order -/
  | format2
  /-- big-endian bytes, words swapped -/
  | format3
  /-- big-endian bytes, words in natural order -/
  | format4
deriving DecidableEq, Repr

end Sys2Proof
end

