-- ==== Sys2Proof/Config.lean ====
section
/-!
DEFINITION. The implementation parameters of 00_scope.md rule R5 that the model reads. `WORD_W`, `VALUE_W`, `PAIR_N`,
`N_FORMATS`, `FMT_W` and `CMD_W` are in the types of Word.lean and Decode.lean. `N_HOSTS` is open (D27): it is the argument
`nHosts` of the machine of Machine/Hosts.lean, and of the statements about hosts. `CFG_KEY` has no effect on the model (D28).
There is no free value: "no response field is left without a definition" (93_implementation_defined.md).
-/
namespace Sys2Proof.Config

/-- R5 `FALLBACK_FORMAT`. -/
abbrev fallbackFormat : FloatFormat := .format1

/-- R5 `N_HOSTS`: the default of the open parameter (D27). -/
abbrev nHostsDefault : Nat := 1

/-- R5 `LEN_W`: the LEN byte of a DECODE frame counts 0..255. -/
abbrev lenMax : Nat := 255

/-- R5 `CFG_MAX_LEN`: the longest configuration string the strap can present (D6; log 13). -/
abbrev cfgMaxLen : Nat := 255

end Sys2Proof.Config
end

