-- ==== Sys2Proof/Syntax.lean ====
section
/-!
DEFINITION. The six commands as abstract requests (30_encoding.md rules R41, R48): one constructor per row of
spec/opcode_table.json.
-/
namespace Sys2Proof

/-- R48: an abstract request. The register sequence of DECODE has any length; its length is checked when the command is
performed (R65, R66), not by the type (90_conflicts.md C6). -/
inductive Instr where
  /-- `ENCODE fmt, value` (R63) -/
  | encode (fmt : FloatFormat) (value : Pattern32)
  /-- `ENCODE.D value` (R64) -/
  | encodeD (value : Pattern32)
  /-- `DECODE fmt, regs` (R65) -/
  | decode (fmt : FloatFormat) (regs : List Word16)
  /-- `DECODE.D regs` (R66) -/
  | decodeD (regs : List Word16)
  /-- `GETFMT` (R79) -/
  | getfmt
  /-- `SETFMT fmt` (R80) -/
  | setfmt (fmt : FloatFormat)
deriving DecidableEq, Repr

end Sys2Proof
end

