-- ==== Sys2Proof/WellFormed.lean ====
section
/-!
DEFINITION. Which abstract requests a frame can carry (30_encoding.md rules R42, R47). The one limit is the LEN byte: a
register sequence of more than 255 words has no frame (D11, U11). Every format, value and word is legal (R15, R44, R68).
-/
namespace Sys2Proof

/-- R44, R47: the LEN field can count the sequence. -/
def lenFits (regs : List Word16) : Bool := decide (regs.length ≤ Config.lenMax)

/-- The request can be written as a frame. -/
def Instr.wf : Instr → Bool
  | .encode _ _ => true
  | .encodeD _ => true
  | .decode _ regs => lenFits regs
  | .decodeD regs => lenFits regs
  | .getfmt => true
  | .setfmt _ => true

end Sys2Proof
end

