-- ==== Sys2Proof/Decode.lean ====
section
/-!
DEFINITION. Request frames (30_encoding.md rules R42 to R49, R55, R56): format codes, the command byte, the frame decoder
(total on any bytes, rejecting by name), and after it the encoder.
-/
namespace Sys2Proof

/-! ### Format codes (10_state.md R14) -/

/-- R14: FORMAT_k has code k-1; bit 1 is BE, bit 0 is WN. -/
def formatCode : FloatFormat → BitVec 2
  | .format1 => 0b00#2
  | .format2 => 0b01#2
  | .format3 => 0b10#2
  | .format4 => 0b11#2

/-- R14, R15: every 2-bit value names exactly one format. -/
def formatOfCode (c : BitVec 2) : FloatFormat :=
  if c = 0b00#2 then .format1
  else if c = 0b01#2 then .format2
  else if c = 0b10#2 then .format3
  else .format4

/-! ### The command byte (R43, R45, R49) -/

/-- Why a sequence of bytes spells no request (R47, R49). -/
inductive DecodeError where
  /-- no byte at all: the frame is cut short before CMD (R47) -/
  | emptyFrame
  /-- OP is `0000` or `0101`..`1111` (R49) -/
  | reservedOp
  /-- `CMD[3]` is 1 (R43, R49) -/
  | reservedBit3
  /-- a D-form of ENCODE or DECODE with FMT other than `00` (R46, R49) -/
  | reservedDFormat
  /-- GETFMT with D = 1 or FMT other than `00` (R49) -/
  | reservedGetfmt
  /-- SETFMT with D = 1 (R49) -/
  | reservedSetfmt
  /-- fewer bytes than the frame's own length (R47) -/
  | cutShort
  /-- bytes after the frame's end (R47) -/
  | overLong
deriving DecidableEq, Repr

/-- What a command byte selects: a row of R45, with the format of the rows that carry one. -/
inductive Opcode where
  | encode (fmt : FloatFormat)
  | encodeD
  | decode (fmt : FloatFormat)
  | decodeD
  | getfmt
  | setfmt (fmt : FloatFormat)
deriving DecidableEq, Repr

/-- R43: `CMD[7:4]`. -/
def cmdOp (c : Byte) : BitVec 4 := c.extractLsb' 4 4
/-- R43: `CMD[3]`, reserved. -/
def cmdReserved (c : Byte) : BitVec 1 := c.extractLsb' 3 1
/-- R43: `CMD[2]`. -/
def cmdD (c : Byte) : BitVec 1 := c.extractLsb' 2 1
/-- R43: `CMD[1:0]`. -/
def cmdFmt (c : Byte) : BitVec 2 := c.extractLsb' 0 2

/-- R45, R46: the D bit of an ENCODE or DECODE chooses between the explicit form and the D-form, whose FMT must be `00`. -/
def selectForm (c : Byte) (explicitForm : FloatFormat → Opcode) (dForm : Opcode) : Except DecodeError Opcode :=
  if cmdD c = 0#1 then .ok (explicitForm (formatOfCode (cmdFmt c)))
  else if cmdFmt c = 0#2 then .ok dForm
  else .error .reservedDFormat

/-- R45, R49: the command a command byte spells; every other byte is reserved, by name. -/
def decodeCommandByte (c : Byte) : Except DecodeError Opcode :=
  if cmdReserved c ≠ 0#1 then .error .reservedBit3
  else if cmdOp c = 0b0001#4 then selectForm c .encode .encodeD
  else if cmdOp c = 0b0010#4 then selectForm c .decode .decodeD
  else if cmdOp c = 0b0011#4 then
    if cmdD c = 0#1 ∧ cmdFmt c = 0#2 then .ok .getfmt else .error .reservedGetfmt
  else if cmdOp c = 0b0100#4 then
    if cmdD c = 0#1 then .ok (.setfmt (formatOfCode (cmdFmt c))) else .error .reservedSetfmt
  else .error .reservedOp

/-! ### Operand bytes (R42, R44): most-significant byte first -/

/-- R44: `VALUE = byte1 ∥ byte2 ∥ byte3 ∥ byte4`. -/
def valueOfBytes (b1 b2 b3 b4 : Byte) : Pattern32 := b1 ++ b2 ++ b3 ++ b4

/-- R42: the VALUE bytes of a format-V frame. -/
def valueBytes (v : Pattern32) : List Byte :=
  [v.extractLsb' 24 8, v.extractLsb' 16 8, v.extractLsb' 8 8, v.extractLsb' 0 8]

/-- R44: `REGS[i] = byte(2+2i) ∥ byte(3+2i)`. -/
def wordOfBytes (high low : Byte) : Word16 := high ++ low

/-- R42: the two bytes of one register word, high byte first. -/
def wordBytes (w : Word16) : List Byte := [w.extractLsb' 8 8, w.extractLsb' 0 8]

/-- R44: the register words of a format-R frame, in order. -/
def wordsOfBytes : List Byte → List Word16
  | high :: low :: rest => wordOfBytes high low :: wordsOfBytes rest
  | _ => []

/-- R42: the bytes of a register sequence, `REGS[0]` first. -/
def wordsBytes : List Word16 → List Byte
  | [] => []
  | w :: rest => wordBytes w ++ wordsBytes rest

/-! ### The decoder -/

/-- R47: format N has nothing after CMD. -/
def readNothing (operands : List Byte) : Except DecodeError Unit :=
  if operands.isEmpty then .ok () else .error .overLong

/-- R42, R44, R47: format V has exactly the four VALUE bytes after CMD. -/
def readValue : List Byte → Except DecodeError Pattern32
  | [b1, b2, b3, b4] => .ok (valueOfBytes b1 b2 b3 b4)
  | _ :: _ :: _ :: _ :: _ :: _ => .error .overLong
  | _ => .error .cutShort

/-- R42, R44, R47: format R has LEN and exactly 2·LEN bytes after CMD. -/
def readRegs : List Byte → Except DecodeError (List Word16)
  | [] => .error .cutShort
  | len :: data =>
    if data.length < 2 * len.toNat then .error .cutShort
    else if 2 * len.toNat < data.length then .error .overLong
    else .ok (wordsOfBytes data)

/-- R42, R47: the operand bytes of the selected command. -/
def readOperands (op : Opcode) (operands : List Byte) : Except DecodeError Instr :=
  match op with
  | .encode f => (readValue operands).map (Instr.encode f)
  | .encodeD => (readValue operands).map Instr.encodeD
  | .decode f => (readRegs operands).map (Instr.decode f)
  | .decodeD => (readRegs operands).map Instr.decodeD
  | .getfmt => (readNothing operands).map fun _ => Instr.getfmt
  | .setfmt f => (readNothing operands).map fun _ => Instr.setfmt f

/-- R42 to R49: the request a frame spells, or why it spells none. The command byte is examined first (R98 (1)). -/
def decodeFrame : List Byte → Except DecodeError Instr
  | [] => .error .emptyFrame
  | cmd :: operands =>
    match decodeCommandByte cmd with
    | .error e => .error e
    | .ok op => readOperands op operands

/-- R47: the length a frame must have, found from its first one or two bytes; none where the command byte is reserved or
the LEN byte is missing. -/
def frameLength : List Byte → Option Nat
  | [] => none
  | cmd :: operands =>
    match decodeCommandByte cmd with
    | .error _ => none
    | .ok (.encode _) => some 5
    | .ok .encodeD => some 5
    | .ok (.decode _) => operands.head?.map fun len => 2 + 2 * len.toNat
    | .ok .decodeD => operands.head?.map fun len => 2 + 2 * len.toNat
    | .ok .getfmt => some 1
    | .ok (.setfmt _) => some 1

/-! ### The encoder -/

/-- R43: a command byte from its fields, the reserved bit 0. -/
def assembleCommandByte (op : BitVec 4) (d : BitVec 1) (fmt : BitVec 2) : Byte := op ++ 0#1 ++ d ++ fmt

/-- R45: the command byte of each row. -/
def commandByte : Opcode → Byte
  | .encode f => assembleCommandByte 0b0001#4 0#1 (formatCode f)
  | .encodeD => assembleCommandByte 0b0001#4 1#1 0#2
  | .decode f => assembleCommandByte 0b0010#4 0#1 (formatCode f)
  | .decodeD => assembleCommandByte 0b0010#4 1#1 0#2
  | .getfmt => assembleCommandByte 0b0011#4 0#1 0#2
  | .setfmt f => assembleCommandByte 0b0100#4 0#1 (formatCode f)

/-- R42: LEN and the register words. -/
def regsBytes (regs : List Word16) : List Byte := BitVec.ofNat 8 regs.length :: wordsBytes regs

/-- R42: the request frame of a well-formed request (LEN wraps for a sequence of more than 255 words, which `Instr.wf`
excludes). -/
def encode : Instr → List Byte
  | .encode f v => commandByte (.encode f) :: valueBytes v
  | .encodeD v => commandByte .encodeD :: valueBytes v
  | .decode f regs => commandByte (.decode f) :: regsBytes regs
  | .decodeD regs => commandByte .decodeD :: regsBytes regs
  | .getfmt => [commandByte .getfmt]
  | .setfmt f => [commandByte (.setfmt f)]

/-! ### The table of match and mask (R56) -/

/-- One row of R56: a command byte `c` selects the row when `c &&& mask = pattern`. -/
structure OpcodeRow where
  mnemonic : String
  mask : Byte
  pattern : Byte
deriving DecidableEq, Repr

/-- R56, spec/opcode_table.json. The decoder does not use it: that the two agree is a statement. -/
def opcodeRows : List OpcodeRow :=
  [⟨"ENCODE", 0xFC#8, 0x10#8⟩, ⟨"ENCODE.D", 0xFF#8, 0x14#8⟩, ⟨"DECODE", 0xFC#8, 0x20#8⟩,
   ⟨"DECODE.D", 0xFF#8, 0x24#8⟩, ⟨"GETFMT", 0xFF#8, 0x30#8⟩, ⟨"SETFMT", 0xFC#8, 0x40#8⟩]

/-- The row of the table a command byte's command belongs to. -/
def Opcode.mnemonic : Opcode → String
  | .encode _ => "ENCODE"
  | .encodeD => "ENCODE.D"
  | .decode _ => "DECODE"
  | .decodeD => "DECODE.D"
  | .getfmt => "GETFMT"
  | .setfmt _ => "SETFMT"

/-! ### A table word as a frame (log 11) -/

/-- The longest frame: CMD, LEN and 255 register words (R42, R47). -/
abbrev longestFrame : Nat := 2 + 2 * Config.lenMax

/-- The first `n` bytes of a table word, bits 7..0 first. -/
def bytesOfTableWord : Nat → Nat → List Byte
  | 0, _ => []
  | n + 1, w => BitVec.ofNat 8 w :: bytesOfTableWord n (w / 256)

/-- The frame whose bits are `w`, numbered as spec/opcode_table.json numbers them, every bit above `nbits` zero: as many
bytes as the frame's own length (R47), and the command byte alone where it is reserved. -/
def frameOfTableWord (nbits w : Nat) : List Byte :=
  let padded := bytesOfTableWord (nbits / 8) w ++ List.replicate (longestFrame - nbits / 8) 0#8
  padded.take ((frameLength padded).getD 1)

/-- The instruction the decoder reads from an instruction whose bits are `w`. -/
def decodeTableWord (nbits w : Nat) : Option Instr :=
  match decodeFrame (frameOfTableWord nbits w) with
  | .ok i => some i
  | .error _ => none

end Sys2Proof
end

