-- ==== Sys2Proof/Machine/Resolve.lean ====
section
/-!
DEFINITION. The configuration strap and its resolution (30_encoding.md rule R52, 41_default_format.md rules R81 to R83).
Reset is the only thing that samples the strap (R107); no command does.
-/
namespace Sys2Proof.Machine

/-- R52: the configuration input as a value: absent, or a byte string of any length. -/
inductive Cfg where
  | absent
  | present (s : List Byte)
deriving DecidableEq, Repr

/-- R52: the strap's signals. `present` is `CFG_PRESENT`; `bytes` is `CFG_BYTES[0 .. CFG_LEN-1]`, so `CFG_LEN` is its
length (log 13). While `present` is false the bytes influence nothing (U7). -/
structure CfgSignals where
  present : Bool
  bytes : List Byte
deriving DecidableEq, Repr

/-- No configuration: `CFG_PRESENT = 0`. -/
def CfgSignals.absent : CfgSignals := ⟨false, []⟩

/-- R52: what a host drives for a configuration: its string, cut to its first `CFG_MAX_LEN` bytes. -/
def CfgSignals.ofCfg : Cfg → CfgSignals
  | .absent => CfgSignals.absent
  | .present s => ⟨true, s.take Config.cfgMaxLen⟩

/-- R107 `sample(CFG)`: at most `CFG_MAX_LEN` bytes can be presented. -/
def CfgSignals.sample (sig : CfgSignals) : Cfg :=
  if sig.present then .present (sig.bytes.take Config.cfgMaxLen) else .absent

/-- R82: `NAME(f)` as bytes: `FORMAT_1`..`FORMAT_4`, which differ in the last byte only. -/
def formatName : FloatFormat → List Byte
  | .format1 => [0x46#8, 0x4F#8, 0x52#8, 0x4D#8, 0x41#8, 0x54#8, 0x5F#8, 0x31#8]
  | .format2 => [0x46#8, 0x4F#8, 0x52#8, 0x4D#8, 0x41#8, 0x54#8, 0x5F#8, 0x32#8]
  | .format3 => [0x46#8, 0x4F#8, 0x52#8, 0x4D#8, 0x41#8, 0x54#8, 0x5F#8, 0x33#8]
  | .format4 => [0x46#8, 0x4F#8, 0x52#8, 0x4D#8, 0x41#8, 0x54#8, 0x5F#8, 0x34#8]

/-- R81 `ResolveDefault`: exact match against the four names, else silently the fallback (R83, D8). -/
def resolveDefault : Cfg → FloatFormat
  | .absent => Config.fallbackFormat
  | .present s =>
    if s = formatName .format1 then .format1
    else if s = formatName .format2 then .format2
    else if s = formatName .format3 then .format3
    else if s = formatName .format4 then .format4
    else Config.fallbackFormat

end Sys2Proof.Machine
end

