-- ==== Sys2Proof/Machine/State.lean ====
section
/-!
DEFINITION. The machine's state (10_state.md rules R13 to R24), its inputs and outputs, the reasons a step can stop, and the
state after reset. The architectural state is `dfmt` alone (R13); the other fields are the model's: what the block is about
to be given, what it has answered, and whether it has been reset (log 2, log 9).
-/
namespace Sys2Proof.Machine

/-- The one error of the block (R91). -/
inductive ErrorCode where
  /-- `INVALID_INPUT`: a DECODE or DECODE.D whose register sequence is not two words long -/
  | invalidInput
deriving DecidableEq, Repr

/-- R50: an abstract response. There is no constructor for any other status (U8) and no unused field (D22). -/
inductive Response where
  /-- `Pair(R0, R1)`, of ENCODE and ENCODE.D -/
  | pair (p : RegisterPair)
  /-- `Value(VALUE)`, of DECODE and DECODE.D -/
  | value (v : Pattern32)
  /-- `Fmt(FMT)`, of GETFMT -/
  | fmt (f : FloatFormat)
  /-- `Ack`, of SETFMT -/
  | ack
  /-- `Error(INVALID_INPUT)`, of DECODE and DECODE.D -/
  | error (e : ErrorCode)
deriving DecidableEq, Repr

/-- R117: a response paired with its request, and the host that issued the request and receives the response (R93). -/
structure Exchange where
  host : Nat
  request : Instr
  response : Response
deriving DecidableEq, Repr

/-- What the block can meet next. -/
inductive Event where
  /-- the port accepts a request frame of a host (R33, R42) -/
  | command (host : Nat) (frame : List Byte)
  /-- reset is applied, no command in progress, the strap held stable (R107, R110) -/
  | reset
  /-- the strap is driven to these signals, between resets (R52, R110 (1)) -/
  | strap (sig : CfgSignals)
  /-- a command issued while reset is being applied, or reset applied while that command is being performed (R109) -/
  | commandDuringReset (host : Nat) (frame : List Byte)
  /-- reset is applied, and while it is the strap changes to these signals (R110 (1); log 7) -/
  | strapDuringReset (sig : CfgSignals)
deriving DecidableEq, Repr

/-- R24, R110 (2): whether the block has been reset. No command reads it. -/
inductive Phase where
  /-- before the first reset: DFMT holds no value and no command is admitted -/
  | beforeReset
  /-- after a reset: DFMT is defined and commands are admitted -/
  | ready
deriving DecidableEq, Repr

/-- The whole state. -/
structure State where
  /-- R13, R14: `DFMT`, 2 bits. In phase `beforeReset` it stands for no value (R24): nothing reads it (log 9). -/
  dfmt : FloatFormat
  /-- MODEL's field: before or after the first reset (R24, R109). -/
  phase : Phase
  /-- MODEL's field, an input: the level of the configuration strap (R52). -/
  strap : CfgSignals
  /-- MODEL's field, an input: what the block is to meet, in the order it meets it (R33, R34; log 3). -/
  port : List Event
  /-- MODEL's field: the host whose command the port has accepted (R93). -/
  issuer : Nat
  /-- MODEL's field, an output: the responses so far, oldest first (R117). -/
  answered : List Exchange
deriving DecidableEq, Repr

/-- The faults of the machine: none. No command hangs or stops the block (R115, R94), and INVALID_INPUT is a response,
not a stop (R93; log 18). -/
inductive Fault where
deriving DecidableEq, Repr

/-- Why a step has no meaning ("refuse", R12). All are safe: nothing can be proved about a run past one. -/
inductive Refusal where
  /-- an instruction without a meaning; `exec` raises it in no arm -/
  | notModelled (mnemonic : String)
  /-- a reserved command byte or an ill-formed frame (R47, R49, R96); raised by the command port -/
  | invalidRequest (reason : DecodeError)
  /-- a command before the first reset (R24); raised by the command port -/
  | commandBeforeReset
  /-- a command and a reset overlap (R98, R109); raised by the command port -/
  | commandDuringReset
  /-- the configuration presented on the strap is not held stable through reset (R110 (1)); raised by the reset input -/
  | strapDuringReset
  /-- a host that is not one of the `N_HOSTS` hosts (R5, R101; log 19); raised by the machine of Machine/Hosts.lean -/
  | noSuchHost
deriving DecidableEq, Repr

/-- R107, R23: the block right after a reset with the strap at these signals, nothing issued yet. -/
def State.afterReset (sig : CfgSignals) : State where
  dfmt := resolveDefault sig.sample
  phase := .ready
  strap := sig
  port := []
  issuer := 0
  answered := []

/-- The machine right after reset, the strap absent: DFMT is FORMAT_1 (R23). The strap's level is an input that the spec
leaves to the host (log 1); `State.afterReset` is the same for any strap. -/
def State.reset : State := State.afterReset CfgSignals.absent

end Sys2Proof.Machine
end

