-- ==== Sys2Proof/Machine/Operands.lean ====
section
/-!
DEFINITION. The data path (40_codec.md rules R59 to R62, R74): `bswap16`, the format accessors, `Enc`, `Dec`, and the length
check of a DECODE operand (R65). Slices and concatenations only (R73).
-/
namespace Sys2Proof.Machine

/-- R6: the low byte `w[7:0]`. -/
def lowByte (w : Word16) : Byte := w.extractLsb' 0 8
/-- R6: the high byte `w[15:8]`. -/
def highByte (w : Word16) : Byte := w.extractLsb' 8 8
/-- R6: the low-order half `v[15:0]`. -/
def lowHalf (v : Pattern32) : Word16 := v.extractLsb' 0 16
/-- R6: the high-order half `v[31:16]`. -/
def highHalf (v : Pattern32) : Word16 := v.extractLsb' 16 16

/-- R59, the byte_swap_unit: `w[7:0] ∥ w[15:8]`. -/
def bswap16 (w : Word16) : Word16 := lowByte w ++ highByte w

/-- R60: `BE(f)`, bit 1 of the code: big-endian bytes within each word. -/
def bigEndian (f : FloatFormat) : Bool := (formatCode f).getLsbD 1
/-- R60: `WN(f)`, bit 0 of the code: words in natural order. -/
def wordsNatural (f : FloatFormat) : Bool := (formatCode f).getLsbD 0

/-- R60, R72: the byte-order step on one word; both words of a pair take the same. Numeric reading of "low byte" (C1). -/
def orderBytes (f : FloatFormat) (w : Word16) : Word16 := if bigEndian f then bswap16 w else w

/-- R60, R72: the word-order step, from (high, low) to (R0, R1) and, being its own inverse, back. -/
def orderWords (f : FloatFormat) (p : RegisterPair) : RegisterPair :=
  if wordsNatural f then p else ⟨p.r1, p.r0⟩

/-- R61 `Enc(v, f)`. -/
def enc (v : Pattern32) (f : FloatFormat) : RegisterPair :=
  let w := orderWords f ⟨highHalf v, lowHalf v⟩
  ⟨orderBytes f w.r0, orderBytes f w.r1⟩

/-- R62 `Dec((r0, r1), f)`. -/
def dec (p : RegisterPair) (f : FloatFormat) : Pattern32 :=
  let w := orderWords f ⟨orderBytes f p.r0, orderBytes f p.r1⟩
  w.r0 ++ w.r1

/-- R65: the pair of a register sequence of exactly two words; none for any other length. -/
def pairOfRegs : List Word16 → Option RegisterPair
  | [r0, r1] => some ⟨r0, r1⟩
  | _ => none

end Sys2Proof.Machine
end

