-- ==== Sys2Proof/Machine/Ops.lean ====
section
/-!
DEFINITION. The named operations on the state: reading and writing DFMT (10_state.md rule R16), responding (R7, R50), raising
INVALID_INPUT (60_exceptions.md rules R91 to R94), and applying reset (R107). There is no memory and no other register.
-/
namespace Sys2Proof.Machine

/-- R7 `DFMT`: a read, without side effect (R16). -/
def State.readDfmt (s : State) : FloatFormat := s.dfmt

/-- R7 `DFMT <- f`: both fields at once, one indivisible update (R16). -/
def State.writeDfmt (s : State) (f : FloatFormat) : State := { s with dfmt := f }

/-- R7 `respond X`: the command ends with this response, given to the host that issued it (R93, R102). -/
def State.respond (s : State) (request : Instr) (response : Response) : State :=
  { s with answered := s.answered ++ [⟨s.issuer, request, response⟩] }

/-- R7 `raise InvalidInput`: the error is taken by answering it. There is no vector, no saved register, no mode change and no
sticky flag; DFMT is as it was (R92, R93). There is nothing to return from: the block is at once ready for the next command
(R94). -/
def State.raiseInvalidInput (s : State) (request : Instr) : State := s.respond request (.error .invalidInput)

/-- R65, R66: the DECODE of a register sequence under a format: INVALID_INPUT unless it has exactly two words. -/
def State.respondDecoded (s : State) (request : Instr) (regs : List Word16) (f : FloatFormat) : State :=
  match pairOfRegs regs with
  | some p => s.respond request (.value (dec p f))
  | none => s.raiseInvalidInput request

/-- R107: DFMT takes the resolved strap, and nothing else happens; R109: every reset does so anew. -/
def State.applyReset (s : State) : State :=
  { s with dfmt := resolveDefault s.strap.sample, phase := .ready }

/-- R52, R85: the strap is driven; DFMT does not follow it. -/
def State.driveStrap (s : State) (sig : CfgSignals) : State := { s with strap := sig }

/-- The input met is taken from the port. -/
def State.consume (s : State) (rest : List Event) : State := { s with port := rest }

/-- R33, R93: the port accepts a command of a host; the host is where its response goes. -/
def State.accept (s : State) (host : Nat) (rest : List Event) : State := { s with port := rest, issuer := host }

end Sys2Proof.Machine
end

