-- ==== Sys2Proof/Machine/Codec.lean ====
section
/-!
DEFINITION. The codec commands (40_codec.md rules R63 to R66). None of them writes DFMT (R71); the explicit forms do not read
it (R70).
-/
namespace Sys2Proof.Machine

/-- R63 `ENCODE fmt, value`. -/
def execEncode (fmt : FloatFormat) (value : Pattern32) (s : State) : Host.Outcome State Fault Refusal :=
  .next (s.respond (.encode fmt value) (.pair (enc value fmt)))

/-- R64 `ENCODE.D value`: one read of DFMT, at the moment the command is performed. -/
def execEncodeD (value : Pattern32) (s : State) : Host.Outcome State Fault Refusal :=
  .next (s.respond (.encodeD value) (.pair (enc value s.readDfmt)))

/-- R65 `DECODE fmt, regs`. -/
def execDecode (fmt : FloatFormat) (regs : List Word16) (s : State) : Host.Outcome State Fault Refusal :=
  .next (s.respondDecoded (.decode fmt regs) regs fmt)

/-- R66 `DECODE.D regs`. Whether DFMT is read when the length is wrong cannot be observed (U12; log 17). -/
def execDecodeD (regs : List Word16) (s : State) : Host.Outcome State Fault Refusal :=
  .next (s.respondDecoded (.decodeD regs) regs s.readDfmt)

end Sys2Proof.Machine
end

