-- ==== Sys2Proof/Machine/DefaultFormat.lean ====
section
/-!
DEFINITION. The default-format commands (41_default_format.md rules R79, R80). Any host may issue either (R99).
-/
namespace Sys2Proof.Machine

/-- R79 `GETFMT`. -/
def execGetfmt (s : State) : Host.Outcome State Fault Refusal :=
  .next (s.respond .getfmt (.fmt s.readDfmt))

/-- R80 `SETFMT fmt`: the old default is not read. -/
def execSetfmt (fmt : FloatFormat) (s : State) : Host.Outcome State Fault Refusal :=
  .next ((s.writeDfmt fmt).respond (.setfmt fmt) .ack)

end Sys2Proof.Machine
end

