-- ==== Sys2Proof/Machine/Dispatch.lean ====
section
/-! DEFINITION. One arm per command: its meaning (30_encoding.md rule R45, column "semantics"). -/
namespace Sys2Proof.Machine

def exec (i : Instr) (s : State) : Host.Outcome State Fault Refusal :=
  match i with
  | .encode fmt value => Sys2Proof.Machine.execEncode fmt value s
  | .encodeD value => Sys2Proof.Machine.execEncodeD value s
  | .decode fmt regs => Sys2Proof.Machine.execDecode fmt regs s
  | .decodeD regs => Sys2Proof.Machine.execDecodeD regs s
  | .getfmt => Sys2Proof.Machine.execGetfmt s
  | .setfmt fmt => Sys2Proof.Machine.execSetfmt fmt s

end Sys2Proof.Machine
end

