-- ==== Sys2Proof/Machine/Port.lean ====
section
/-!
DEFINITION. What the block does with the next input: accept a command (20_memory.md rule R33), apply reset (R107), follow the
strap (R52), or refuse what the spec gives no meaning (R49, R24, R109, R110). Also how a table word becomes the next command.
-/
namespace Sys2Proof.Machine

/-- What the next input asks of the block. -/
inductive Input where
  /-- no input: the block initiates nothing (R97) -/
  | idle
  /-- an input that is no command, and the state it leaves -/
  | applied (s : State)
  /-- an accepted command, and the state it is performed in -/
  | perform (i : Instr) (s : State)
  /-- an input without a meaning -/
  | refuse (r : Refusal)
deriving DecidableEq, Repr

/-- R98 (1), R24: a command is admitted if its frame spells a request and the block has been reset. -/
def State.admitCommand (s : State) (host : Nat) (frame : List Byte) (rest : List Event) : Input :=
  match decodeFrame frame, s.phase with
  | .error e, _ => .refuse (.invalidRequest e)
  | .ok _, .beforeReset => .refuse .commandBeforeReset
  | .ok i, .ready => .perform i (s.accept host rest)

/-- R110 (1): the strap may move through reset as long as the configuration it presents stays the same: what is not selected
is ignored (R52, U7). Then reset does what it always does (R107); else the rules do not hold and nothing has a meaning. -/
def State.resetWhileStrapMoves (s : State) (sig : CfgSignals) (rest : List Event) : Input :=
  if sig.sample = s.strap.sample then .applied ((s.consume rest).driveStrap sig).applyReset
  else .refuse .strapDuringReset

/-- The next input, in the order the port holds (R33). -/
def State.nextInput (s : State) : Input :=
  match s.port with
  | [] => .idle
  | .command host frame :: rest => s.admitCommand host frame rest
  | .reset :: rest => .applied (s.consume rest).applyReset
  | .strap sig :: rest => .applied ((s.consume rest).driveStrap sig)
  | .commandDuringReset _ _ :: _ => .refuse .commandDuringReset
  | .strapDuringReset sig :: rest => s.resetWhileStrapMoves sig rest

/-- A request frame of host 0 as the very next input of a block that has been reset (log 11). -/
def State.presentFrame (s : State) (frame : List Byte) : State :=
  { s with phase := .ready, port := .command 0 frame :: s.port }

end Sys2Proof.Machine
end

