-- ==== Sys2Proof/Machine/Step.lean ====
section
/-!
DEFINITION. One step: one input of the block, performed as one indivisible step (20_memory.md rule R33). With no input left
the block stays as it is (R97, R117; log 5).
-/
namespace Sys2Proof.Machine

/-- One step of the machine. -/
def step (s : State) : Host.Outcome State Fault Refusal :=
  match s.nextInput with
  | .idle => .next s
  | .applied t => .next t
  | .perform i t => exec i t
  | .refuse r => .refused r

/-- The instruction whose bits are `w` as the very next command (log 11). -/
def State.withFetchWord (s : State) (nbits w : Nat) : State := s.presentFrame (frameOfTableWord nbits w)

end Sys2Proof.Machine
end

