-- ==== Sys2Proof/Machine/Flags.lean ====
section
/-!
DEFINITION. The block has no flags, condition codes or sticky status (10_state.md rule R19). The one status it gives is the
STATUS byte of a response (30_encoding.md rules R50, R51), and with it the response frame.
-/
namespace Sys2Proof.Machine

/-- R51: the status code of an error. -/
def ErrorCode.status : ErrorCode → Byte
  | .invalidInput => 0x01#8

/-- R50, R51: STATUS, `0x00` for every response but an error. -/
def Response.status : Response → Byte
  | .pair _ => 0x00#8
  | .value _ => 0x00#8
  | .fmt _ => 0x00#8
  | .ack => 0x00#8
  | .error e => e.status

/-- R50: the bytes after STATUS. -/
def Response.payload : Response → List Byte
  | .pair p => wordBytes p.r0 ++ wordBytes p.r1
  | .value v => valueBytes v
  | .fmt f => [0#6 ++ formatCode f]
  | .ack => []
  | .error _ => []

/-- R50: the response frame. -/
def Response.frame (r : Response) : List Byte := r.status :: r.payload

end Sys2Proof.Machine
end

