-- ==== Sys2Proof/Machine/Hosts.lean ====
section
/-!
DEFINITION. The machine with the open parameter `N_HOSTS` (00_scope.md rule R5, D27) as its argument: `N_HOSTS` hosts, numbered
from 0, share the block (60_exceptions.md rule R101). `step` is the same block with no bound on the host numbers (log 19).
-/
namespace Sys2Proof.Machine

/-- The input comes from one of `nHosts` hosts, or from none (a reset, the strap). -/
def Event.fromHosts (nHosts : Nat) : Event → Bool
  | .command host _ => decide (host < nHosts)
  | .commandDuringReset host _ => decide (host < nHosts)
  | .reset => true
  | .strap _ => true
  | .strapDuringReset _ => true

/-- R101: every command to come was issued by, and every answer given went to, one of `nHosts` hosts. -/
def State.hostsWithin (nHosts : Nat) (s : State) : Bool :=
  s.port.all (Event.fromHosts nHosts) && s.answered.all fun x => decide (x.host < nHosts)

/-- R5, D27: one step of a block that `nHosts` hosts share. -/
def stepFor (nHosts : Nat) (s : State) : Host.Outcome State Fault Refusal :=
  if s.hostsWithin nHosts then step s else .refused .noSuchHost

/-- R5, D27: the machine with `N_HOSTS` = `nHosts`. -/
def coreFor (nHosts : Nat) : Host.Core :=
  { State := State
    Fault := Fault
    Refusal := Refusal
    step := stepFor nHosts
    reset := State.reset }

end Sys2Proof.Machine
end

