-- ==== Sys2Proof/Safety.lean ====
section
/-!
DEFINITION. The terms claims use: the closed forms of 40_codec.md rules R61 and R62, what a command answers under a default
(R75), what an undisturbed sequence of inputs answers (R84, R117), the hosts' duties (R102, R118), and the interleavings of
two hosts (R34). Nothing here is used by the machine.
-/
namespace Sys2Proof.Safety

open Sys2Proof.Machine

/-! ### Closed forms -/

/-- R61, second table: `Enc(v, f)` in closed form. -/
def encTable (v : Pattern32) : FloatFormat → RegisterPair
  | .format1 => ⟨v.extractLsb' 0 16, v.extractLsb' 16 16⟩
  | .format2 => ⟨v.extractLsb' 16 16, v.extractLsb' 0 16⟩
  | .format3 => ⟨v.extractLsb' 0 8 ++ v.extractLsb' 8 8, v.extractLsb' 16 8 ++ v.extractLsb' 24 8⟩
  | .format4 => ⟨v.extractLsb' 16 8 ++ v.extractLsb' 24 8, v.extractLsb' 0 8 ++ v.extractLsb' 8 8⟩

/-- R62, second table: `Dec((r0, r1), f)` in closed form. -/
def decTable (r0 r1 : Word16) : FloatFormat → Pattern32
  | .format1 => r1 ++ r0
  | .format2 => r0 ++ r1
  | .format3 => r1.extractLsb' 0 8 ++ r1.extractLsb' 8 8 ++ r0.extractLsb' 0 8 ++ r0.extractLsb' 8 8
  | .format4 => r0.extractLsb' 0 8 ++ r0.extractLsb' 8 8 ++ r1.extractLsb' 0 8 ++ r1.extractLsb' 8 8

/-- R74: the pair as one 32-bit word, `r0 ∥ r1`. -/
def packed (p : RegisterPair) : Pattern32 := p.r0 ++ p.r1

/-- R74 `P_f`. -/
def permute (f : FloatFormat) (v : Pattern32) : Pattern32 := packed (enc v f)

/-! ### What a command answers -/

/-- R75: the response of a command, given the default format. -/
def answerUnder (d : FloatFormat) : Instr → Response
  | .encode f v => .pair (encTable v f)
  | .encodeD v => .pair (encTable v d)
  | .decode f [r0, r1] => .value (decTable r0 r1 f)
  | .decode _ _ => .error .invalidInput
  | .decodeD [r0, r1] => .value (decTable r0 r1 d)
  | .decodeD _ => .error .invalidInput
  | .getfmt => .fmt d
  | .setfmt _ => .ack

/-- R16: the default after a command. -/
def defaultAfter (d : FloatFormat) : Instr → FloatFormat
  | .encode _ _ => d
  | .encodeD _ => d
  | .decode _ _ => d
  | .decodeD _ => d
  | .getfmt => d
  | .setfmt f => f

/-- R64, R66, R79: the commands that read DFMT. -/
def readsDefault : Instr → Bool
  | .encode _ _ => false
  | .encodeD _ => true
  | .decode _ _ => false
  | .decodeD _ => true
  | .getfmt => true
  | .setfmt _ => false

/-- R91: the requests the block answers with INVALID_INPUT. -/
def wrongLength : Instr → Bool
  | .encode _ _ => false
  | .encodeD _ => false
  | .decode _ regs => regs.length != 2
  | .decodeD regs => regs.length != 2
  | .getfmt => false
  | .setfmt _ => false

/-- R50: the responses the table has for a command. -/
def fitsRow : Instr → Response → Bool
  | .encode _ _, .pair _ => true
  | .encodeD _, .pair _ => true
  | .decode _ _, .value _ => true
  | .decode _ _, .error .invalidInput => true
  | .decodeD _, .value _ => true
  | .decodeD _, .error .invalidInput => true
  | .getfmt, .fmt _ => true
  | .setfmt _, .ack => true
  | _, _ => false

/-- The response of the latest command performed. -/
def lastResponse (s : State) : Option Response := s.answered.getLast?.map Exchange.response

/-- R15, R34, R70: every recorded answer is the answer of its request under one of the four formats; for a request that does
not read DFMT this leaves one answer. -/
def answersLawful (s : State) : Prop := ∀ x ∈ s.answered, ∃ d, x.response = answerUnder d x.request

/-! ### Runs -/

/-- R102, R110, R118 (1), (2): what the hosts owe the block, from a phase and a strap level on. R110 (1) is read as log 7 says. -/
def dutiesMet (p : Phase) (sig : CfgSignals) : List Event → Bool
  | [] => true
  | .command _ frame :: rest => p == .ready && (decodeFrame frame).isOk && dutiesMet p sig rest
  | .reset :: rest => dutiesMet .ready sig rest
  | .strap sig' :: rest => dutiesMet p sig' rest
  | .commandDuringReset _ _ :: _ => false
  | .strapDuringReset sig' :: rest => sig'.sample == sig.sample && dutiesMet .ready sig' rest

/-- The requests of a sequence of inputs, each with its host, in acceptance order. -/
def issued : List Event → List (Nat × Instr)
  | [] => []
  | .command host frame :: rest =>
    match decodeFrame frame with
    | .ok i => (host, i) :: issued rest
    | .error _ => issued rest
  | _ :: rest => issued rest

/-- R33, R84, R117: the answers of a sequence of inputs that meets the hosts' duties, from a default and a strap level on. -/
def answersFrom (d : FloatFormat) (sig : CfgSignals) : List Event → List Exchange
  | [] => []
  | .command host frame :: rest =>
    match decodeFrame frame with
    | .ok i => ⟨host, i, answerUnder d i⟩ :: answersFrom (defaultAfter d i) sig rest
    | .error _ => []
  | .reset :: rest => answersFrom (resolveDefault sig.sample) sig rest
  | .strap sig' :: rest => answersFrom d sig' rest
  | .commandDuringReset _ _ :: _ => []
  | .strapDuringReset sig' :: rest => answersFrom (resolveDefault sig'.sample) sig' rest

/-- R33, R117: DFMT after such a sequence. -/
def defaultAfterAll (d : FloatFormat) (sig : CfgSignals) : List Event → FloatFormat
  | [] => d
  | .command _ frame :: rest =>
    match decodeFrame frame with
    | .ok i => defaultAfterAll (defaultAfter d i) sig rest
    | .error _ => d
  | .reset :: rest => defaultAfterAll (resolveDefault sig.sample) sig rest
  | .strap sig' :: rest => defaultAfterAll d sig' rest
  | .commandDuringReset _ _ :: _ => d
  | .strapDuringReset sig' :: rest => defaultAfterAll (resolveDefault sig'.sample) sig' rest

/-- The inputs in which reset is applied. -/
def appliesReset : Event → Bool
  | .command _ _ => false
  | .reset => true
  | .strap _ => false
  | .commandDuringReset _ _ => true
  | .strapDuringReset _ => true

/-- Requests of hosts as inputs of the port, each by its frame. -/
def commandEvents (requests : List (Nat × Instr)) : List Event :=
  requests.map fun r => .command r.1 (encode r.2)

/-- R84: the operand of the latest SETFMT of a sequence of requests, or `d` if there is none. -/
def latestSetfmt (d : FloatFormat) (requests : List (Nat × Instr)) : FloatFormat :=
  ((requests.filterMap fun r => match r.2 with | .setfmt f => some f | _ => none).getLast?).getD d

/-- The operands of the SETFMT requests among the inputs. -/
def setfmtOperands (evs : List Event) : List FloatFormat :=
  (issued evs).filterMap fun r => match r.2 with | .setfmt f => some f | _ => none

/-- R34: the third list takes the elements of the first two, keeping the order within each. -/
inductive Interleaving {α : Type} : List α → List α → List α → Prop where
  | done : Interleaving [] [] []
  | fromFirst (x : α) {as bs cs : List α} : Interleaving as bs cs → Interleaving (x :: as) bs (x :: cs)
  | fromSecond (x : α) {as bs cs : List α} : Interleaving as bs cs → Interleaving as (x :: bs) (x :: cs)

/-- What one host issued, in its own order, among requests of several hosts. -/
def programOf (host : Nat) (requests : List (Nat × Instr)) : List Instr :=
  (requests.filter fun r => r.1 == host).map Prod.snd

/-- R33, R34: the requests are an interleaving of the programs of `nHosts` hosts. -/
def interleaves (nHosts : Nat) (programs : Vector (List Instr) nHosts) (requests : List (Nat × Instr)) : Prop :=
  (∀ r ∈ requests, r.1 < nHosts) ∧ ∀ host : Fin nHosts, programOf host requests = programs[host]

/-- The whole port, run to its end. -/
def runPort (s : State) : Host.Outcome State Fault Refusal := Host.Core.run Sys2Proof.core s.port.length s

end Sys2Proof.Safety
end

