-- ==== Sys2Proof/Certificates/Slice0/Obligations.lean ====
section
/-!
DEFINITION. The statements for the provers, from the numbered rules of spec/. There is no memory, no register file, no flag
and no program counter (R17, R18, R19, R25), so a frame says: DFMT, and the model's own fields.
-/

open Sys2Proof Sys2Proof.Machine Sys2Proof.Safety

/-! ### Encoding -/

/-- R56: the table of match and mask; every command byte selects at most one row, and the decoder reads from it the command of
that row, or nothing where there is none. -/
def Obligations.CommandByteSelectsItsTableRow : Prop :=
  opcodeRows.map (fun row => (row.mnemonic, row.mask, row.pattern)) =
    [("ENCODE", 0xFC#8, 0x10#8), ("ENCODE.D", 0xFF#8, 0x14#8), ("DECODE", 0xFC#8, 0x20#8),
     ("DECODE.D", 0xFF#8, 0x24#8), ("GETFMT", 0xFF#8, 0x30#8), ("SETFMT", 0xFC#8, 0x40#8)] ∧
  ∀ c : Byte, (opcodeRows.filter fun row => c &&& row.mask == row.pattern).map OpcodeRow.mnemonic =
    match decodeCommandByte c with
    | .ok op => [op.mnemonic]
    | .error _ => []

/-- R45, R55: the 15 command bytes and what each spells; no other byte spells a command. -/
def Obligations.FifteenCommandBytes : Prop :=
  ∀ (c : Byte) (op : Opcode), decodeCommandByte c = .ok op ↔ (c, op) ∈
    [(0x10#8, Opcode.encode .format1), (0x11#8, .encode .format2), (0x12#8, .encode .format3), (0x13#8, .encode .format4),
     (0x14#8, .encodeD),
     (0x20#8, .decode .format1), (0x21#8, .decode .format2), (0x22#8, .decode .format3), (0x23#8, .decode .format4),
     (0x24#8, .decodeD),
     (0x30#8, .getfmt),
     (0x40#8, .setfmt .format1), (0x41#8, .setfmt .format2), (0x42#8, .setfmt .format3), (0x43#8, .setfmt .format4)]

/-- R49, R98 (1): the reserved command bytes are those of the rule's five classes; no bytes after one make a request of it; and
an invalid request is refused whatever the block's state. That the refusal is named `invalidRequest` before the first reset
too, where R24 also refuses, and that it carries the decoder's reason, is the MODEL's choice (log 8). -/
def Obligations.ReservedEncodingsAreRefused : Prop :=
  (∀ c : Byte, (∃ e, decodeCommandByte c = .error e) ↔
    (cmdOp c = 0#4 ∨ 5 ≤ (cmdOp c).toNat) ∨ cmdReserved c = 1#1 ∨
    ((cmdOp c = 1#4 ∨ cmdOp c = 2#4) ∧ cmdD c = 1#1 ∧ cmdFmt c ≠ 0#2) ∨
    (cmdOp c = 3#4 ∧ (cmdD c = 1#1 ∨ cmdFmt c ≠ 0#2)) ∨
    (cmdOp c = 4#4 ∧ cmdD c = 1#1)) ∧
  (∀ (c : Byte) (e : DecodeError) (operands : List Byte),
    decodeCommandByte c = .error e → decodeFrame (c :: operands) = .error e) ∧
  (∀ (s : State) (host : Nat) (frame : List Byte) (rest : List Event) (e : DecodeError),
    s.port = .command host frame :: rest → decodeFrame frame = .error e → step s = .refused (.invalidRequest e))

/-- R47: after a defined command byte a frame spells a request exactly when it has the length its first one or two bytes
give; any LEN is well-formed, and the block answers the request with INVALID_INPUT exactly when LEN is not 2. -/
def Obligations.FrameLengthRule : Prop :=
  decodeFrame [] = .error .emptyFrame ∧
  ∀ (c : Byte) (op : Opcode) (operands : List Byte), decodeCommandByte c = .ok op →
    ((∃ i, decodeFrame (c :: operands) = .ok i) ↔
      if cmdOp c = 0b0011#4 ∨ cmdOp c = 0b0100#4 then operands.length + 1 = 1
      else if cmdOp c = 0b0001#4 then operands.length + 1 = 5
      else ∃ len data, operands = len :: data ∧ operands.length + 1 = 2 + 2 * len.toNat) ∧
    (∀ len data i, cmdOp c = 0b0010#4 → operands = len :: data → decodeFrame (c :: operands) = .ok i →
      ∀ s, ∃ t, exec i s = .next t ∧ (lastResponse t = some (.error .invalidInput) ↔ len.toNat ≠ 2))

/-- R42 to R46: no bit of a well-formed request is lost in its frame. -/
def Obligations.DecodeOfEncodeIsTheRequest : Prop :=
  ∀ i : Instr, i.wf = true → decodeFrame (encode i) = .ok i

/-- R42 to R47: a request has one frame only, and what a frame spells is well-formed. -/
def Obligations.EncodeOfDecodeIsTheFrame : Prop :=
  ∀ (frame : List Byte) (i : Instr), decodeFrame frame = .ok i → i.wf = true ∧ encode i = frame

/-- R53: the six frames of the listing spell the six commands beside them. -/
def Obligations.ListingFramesDecode : Prop :=
  decodeFrame [0x12#8, 0x3F#8, 0x9D#8, 0x70#8, 0xA4#8] = .ok (.encode .format3 0x3F9D70A4#32) ∧
  decodeFrame [0x14#8, 0x3F#8, 0x9D#8, 0x70#8, 0xA4#8] = .ok (.encodeD 0x3F9D70A4#32) ∧
  decodeFrame [0x20#8, 0x02#8, 0x70#8, 0xA4#8, 0x3F#8, 0x9D#8] = .ok (.decode .format1 [0x70A4#16, 0x3F9D#16]) ∧
  decodeFrame [0x24#8, 0x01#8, 0x12#8, 0x34#8] = .ok (.decodeD [0x1234#16]) ∧
  decodeFrame [0x30#8] = .ok .getfmt ∧
  decodeFrame [0x43#8] = .ok (.setfmt .format4)

/-- MODEL's choice (log 11): an instruction given as a table word is the very next command performed, for host 0. -/
def Obligations.TableWordIsTheNextCommand : Prop :=
  ∀ (s : State) (nbits w : Nat) (i : Instr), decodeTableWord nbits w = some i →
    step (s.withFetchWord nbits w) = exec i { s with phase := .ready, issuer := 0 }

/-! ### The data path -/

/-- R59: the byte exchange, its own inverse, and the words it leaves alone. -/
def Obligations.ByteSwapUnit : Prop :=
  (∀ w : Word16, bswap16 w = w.extractLsb' 0 8 ++ w.extractLsb' 8 8) ∧
  (∀ w : Word16, bswap16 (bswap16 w) = w) ∧
  (∀ w : Word16, bswap16 w = w ↔ w.extractLsb' 8 8 = w.extractLsb' 0 8) ∧
  bswap16 0x70A4#16 = 0xA470#16 ∧ bswap16 0x3F9D#16 = 0x9D3F#16 ∧
  bswap16 0x1234#16 = 0x3412#16 ∧ bswap16 0x8000#16 = 0x0080#16

/-- R61: `Enc` is the rule's closed form, and exactly the function that `Dec` undoes. -/
def Obligations.EncIsItsClosedForm : Prop :=
  (∀ (v : Pattern32) (f : FloatFormat), enc v f = encTable v f) ∧
  (∀ (v : Pattern32) (f : FloatFormat) (p : RegisterPair), dec p f = v ↔ p = enc v f) ∧
  enc 0x3F9D70A4#32 .format1 = ⟨0x70A4#16, 0x3F9D#16⟩

/-- R62: `Dec` is the rule's closed form. -/
def Obligations.DecIsItsClosedForm : Prop :=
  (∀ (r0 r1 : Word16) (f : FloatFormat), dec ⟨r0, r1⟩ f = decTable r0 r1 f) ∧
  dec ⟨0x70A4#16, 0x3F9D#16⟩ .format1 = 0x3F9D70A4#32

/-- R67: round trip in both directions, bit for bit; so no two values share a pair and every pair encodes one value. -/
def Obligations.RoundTripBothWays : Prop :=
  (∀ (v : Pattern32) (f : FloatFormat), dec (enc v f) f = v) ∧
  (∀ (p : RegisterPair) (f : FloatFormat), enc (dec p f) f = p) ∧
  (∀ f : FloatFormat, Function.Bijective (fun v => enc v f) ∧ Function.Bijective (fun p => dec p f))

/-- R69: exactly when two formats give the same pair; the four are pairwise distinct exactly when none of the three
conditions holds, and all coincide when two hold. -/
def Obligations.FormatsCoincideExactly : Prop :=
  ∀ v : Pattern32,
    let halvesEqual := v.extractLsb' 24 8 = v.extractLsb' 8 8 ∧ v.extractLsb' 16 8 = v.extractLsb' 0 8
    let bytesEqual := v.extractLsb' 24 8 = v.extractLsb' 16 8 ∧ v.extractLsb' 8 8 = v.extractLsb' 0 8
    let mirrored := v.extractLsb' 24 8 = v.extractLsb' 0 8 ∧ v.extractLsb' 16 8 = v.extractLsb' 8 8
    (enc v .format1 = enc v .format2 ↔ halvesEqual) ∧ (enc v .format3 = enc v .format4 ↔ halvesEqual) ∧
    (enc v .format1 = enc v .format3 ↔ bytesEqual) ∧ (enc v .format2 = enc v .format4 ↔ bytesEqual) ∧
    (enc v .format1 = enc v .format4 ↔ mirrored) ∧ (enc v .format2 = enc v .format3 ↔ mirrored) ∧
    (halvesEqual ↔ v.extractLsb' 16 16 = v.extractLsb' 0 16) ∧
    ((∀ f g, f ≠ g → enc v f ≠ enc v g) ↔ ¬ halvesEqual ∧ ¬ bytesEqual ∧ ¬ mirrored) ∧
    ((halvesEqual ∧ bytesEqual ∨ halvesEqual ∧ mirrored ∨ bytesEqual ∧ mirrored) → ∀ f g, enc v f = enc v g) ∧
    (v = 0x3F9D70A4#32 → ∀ f g, f ≠ g → enc v f ≠ enc v g) ∧
    (v = 0x3F9D70A4#32 → enc v .format1 = ⟨0x70A4#16, 0x3F9D#16⟩ ∧ enc v .format2 = ⟨0x3F9D#16, 0x70A4#16⟩ ∧
      enc v .format3 = ⟨0xA470#16, 0x9D3F#16⟩ ∧ enc v .format4 = ⟨0x9D3F#16, 0xA470#16⟩) ∧
    (v = 0xAABBAABB#32 → enc v .format1 = ⟨0xAABB#16, 0xAABB#16⟩ ∧ enc v .format2 = ⟨0xAABB#16, 0xAABB#16⟩ ∧
      enc v .format3 = ⟨0xBBAA#16, 0xBBAA#16⟩ ∧ enc v .format4 = ⟨0xBBAA#16, 0xBBAA#16⟩) ∧
    (v = 0x7F7FFFFF#32 → enc v .format1 = ⟨0xFFFF#16, 0x7F7F#16⟩ ∧ enc v .format2 = ⟨0x7F7F#16, 0xFFFF#16⟩ ∧
      enc v .format3 = ⟨0xFFFF#16, 0x7F7F#16⟩ ∧ enc v .format4 = ⟨0x7F7F#16, 0xFFFF#16⟩) ∧
    (v = 0x11222211#32 → enc v .format1 = ⟨0x2211#16, 0x1122#16⟩ ∧ enc v .format2 = ⟨0x1122#16, 0x2211#16⟩ ∧
      enc v .format3 = ⟨0x1122#16, 0x2211#16⟩ ∧ enc v .format4 = ⟨0x2211#16, 0x1122#16⟩)

/-- R74: both directions under a format are one permutation of the packed word, its own inverse; the four permutations, the
relations between formats, and their composition. -/
def Obligations.OnePermutationBothDirections : Prop :=
  (∀ v : Pattern32,
    permute .format2 v = v ∧
    permute .format1 v = v.extractLsb' 0 16 ++ v.extractLsb' 16 16 ∧
    permute .format4 v = v.extractLsb' 16 8 ++ v.extractLsb' 24 8 ++ v.extractLsb' 0 8 ++ v.extractLsb' 8 8 ∧
    permute .format3 v = v.extractLsb' 0 8 ++ v.extractLsb' 8 8 ++ v.extractLsb' 16 8 ++ v.extractLsb' 24 8) ∧
  (∀ (f : FloatFormat) (v : Pattern32), permute f (permute f v) = v) ∧
  (∀ (f : FloatFormat) (p : RegisterPair), dec p f = permute f (packed p)) ∧
  (∀ v : Pattern32,
    enc v .format1 = ⟨(enc v .format2).r1, (enc v .format2).r0⟩ ∧
    enc v .format4 = ⟨bswap16 (enc v .format2).r0, bswap16 (enc v .format2).r1⟩ ∧
    enc v .format3 = ⟨bswap16 (enc v .format1).r0, bswap16 (enc v .format1).r1⟩ ∧
    enc v .format3 = ⟨(enc v .format4).r1, (enc v .format4).r0⟩) ∧
  (∀ (f g : FloatFormat) (v : Pattern32), dec (enc v f) g = permute g (permute f v)) ∧
  (∀ (f g h : FloatFormat) (v : Pattern32),
    f ≠ .format2 → g ≠ .format2 → h ≠ .format2 → f ≠ g → f ≠ h → g ≠ h → permute g (permute f v) = permute h v)

/-- R73: every output bit is a copy of one input bit, each input bit is copied once, and which one depends on the format
alone. -/
def Obligations.OutputBitsCopyInputBits : Prop :=
  ∀ f : FloatFormat,
    (∃ source : Fin 32 → Fin 32, Function.Bijective source ∧
      ∀ (v : Pattern32) (j : Fin 32), (packed (enc v f)).getLsbD j = v.getLsbD (source j)) ∧
    (∃ source : Fin 32 → Fin 32, Function.Bijective source ∧
      ∀ (p : RegisterPair) (j : Fin 32), (dec p f).getLsbD j = (packed p).getLsbD (source j))

/-- R116: decoding under another format than the one used to encode gives a permuted pattern and no error. -/
def Obligations.WrongFormatPermutesSilently : Prop :=
  (∀ (s : State) (v : Pattern32) (f g : FloatFormat),
    exec (.decode g [(enc v f).r0, (enc v f).r1]) s =
      .next { s with answered := s.answered ++
        [⟨s.issuer, .decode g [(enc v f).r0, (enc v f).r1], .value (permute g (permute f v))⟩] }) ∧
  permute .format2 (permute .format1 0x3F9D70A4#32) = 0x70A43F9D#32

/-! ### The commands: each answers its next state, with everything else unchanged -/

/-- R63: ENCODE. -/
def Obligations.EncodeAnswersEncodedPair : Prop :=
  ∀ (s : State) (fmt : FloatFormat) (value : Pattern32),
    exec (.encode fmt value) s =
      .next { s with answered := s.answered ++ [⟨s.issuer, .encode fmt value, .pair (enc value fmt)⟩] } ∧
    encode (.encode fmt value) = (0x10#8 + (formatCode fmt).setWidth 8) ::
      [value.extractLsb' 24 8, value.extractLsb' 16 8, value.extractLsb' 8 8, value.extractLsb' 0 8] ∧
    (Response.pair (enc value fmt)).status = 0x00#8 ∧
    enc 0x00000000#32 fmt = ⟨0x0000#16, 0x0000#16⟩ ∧ enc 0xFFFFFFFF#32 fmt = ⟨0xFFFF#16, 0xFFFF#16⟩ ∧
    encode (.encode .format3 0x3F9D70A4#32) = [0x12#8, 0x3F#8, 0x9D#8, 0x70#8, 0xA4#8] ∧
    (Response.pair (enc 0x3F9D70A4#32 .format3)).frame = [0x00#8, 0xA4#8, 0x70#8, 0x9D#8, 0x3F#8]

/-- R64: ENCODE.D. -/
def Obligations.EncodeDAnswersUnderDefault : Prop :=
  ∀ (s : State) (value : Pattern32),
    exec (.encodeD value) s =
      .next { s with answered := s.answered ++ [⟨s.issuer, .encodeD value, .pair (enc value s.dfmt)⟩] } ∧
    encode (.encodeD value) = 0x14#8 ::
      [value.extractLsb' 24 8, value.extractLsb' 16 8, value.extractLsb' 8 8, value.extractLsb' 0 8] ∧
    (Response.pair (enc value s.dfmt)).status = 0x00#8 ∧
    encode (.encodeD 0x3F9D70A4#32) = [0x14#8, 0x3F#8, 0x9D#8, 0x70#8, 0xA4#8] ∧
    (s.dfmt = .format1 → (Response.pair (enc 0x3F9D70A4#32 s.dfmt)).frame = [0x00#8, 0x70#8, 0xA4#8, 0x3F#8, 0x9D#8]) ∧
    (∀ sig : CfgSignals, (∀ f, sig.sample ≠ .present (formatName f)) →
      let fresh := State.afterReset sig
      exec (.encodeD value) fresh = .next { fresh with answered :=
        fresh.answered ++ [⟨fresh.issuer, .encodeD value, .pair (enc value .format1)⟩] })

/-- R65: DECODE, of two words and of any other number of words. -/
def Obligations.DecodeAnswersDecodedValue : Prop :=
  ∀ (s : State) (fmt : FloatFormat) (regs : List Word16),
    (∀ r0 r1, regs = [r0, r1] → exec (.decode fmt regs) s =
      .next { s with answered := s.answered ++ [⟨s.issuer, .decode fmt regs, .value (dec ⟨r0, r1⟩ fmt)⟩] }) ∧
    (regs.length ≠ 2 → exec (.decode fmt regs) s =
      .next { s with answered := s.answered ++ [⟨s.issuer, .decode fmt regs, .error .invalidInput⟩] }) ∧
    (regs.length ≤ 255 → encode (.decode fmt regs) =
      (0x20#8 + (formatCode fmt).setWidth 8) :: BitVec.ofNat 8 regs.length ::
        regs.flatMap fun w => [w.extractLsb' 8 8, w.extractLsb' 0 8]) ∧
    encode (.decode .format1 [0x70A4#16, 0x3F9D#16]) = [0x20#8, 0x02#8, 0x70#8, 0xA4#8, 0x3F#8, 0x9D#8] ∧
    (Response.value (dec ⟨0x70A4#16, 0x3F9D#16⟩ .format1)).frame = [0x00#8, 0x3F#8, 0x9D#8, 0x70#8, 0xA4#8] ∧
    encode (.decode .format1 [0x1234#16]) = [0x20#8, 0x01#8, 0x12#8, 0x34#8] ∧
    (Response.error .invalidInput).frame = [0x01#8]

/-- R66: DECODE.D, of two words and of any other number of words. -/
def Obligations.DecodeDAnswersUnderDefault : Prop :=
  ∀ (s : State) (regs : List Word16),
    (∀ r0 r1, regs = [r0, r1] → exec (.decodeD regs) s =
      .next { s with answered := s.answered ++ [⟨s.issuer, .decodeD regs, .value (dec ⟨r0, r1⟩ s.dfmt)⟩] }) ∧
    (regs.length ≠ 2 → exec (.decodeD regs) s =
      .next { s with answered := s.answered ++ [⟨s.issuer, .decodeD regs, .error .invalidInput⟩] }) ∧
    (regs.length ≤ 255 → encode (.decodeD regs) =
      0x24#8 :: BitVec.ofNat 8 regs.length :: regs.flatMap fun w => [w.extractLsb' 8 8, w.extractLsb' 0 8]) ∧
    encode (.decodeD [0x70A4#16, 0x3F9D#16]) = [0x24#8, 0x02#8, 0x70#8, 0xA4#8, 0x3F#8, 0x9D#8] ∧
    (s.dfmt = .format1 → dec ⟨0x70A4#16, 0x3F9D#16⟩ s.dfmt = 0x3F9D70A4#32) ∧
    encode (.decodeD [0x1234#16, 0x5678#16, 0x9ABC#16]) =
      [0x24#8, 0x03#8, 0x12#8, 0x34#8, 0x56#8, 0x78#8, 0x9A#8, 0xBC#8] ∧
    (Response.error .invalidInput).status = 0x01#8

/-- R79: GETFMT. -/
def Obligations.GetfmtAnswersDefault : Prop :=
  ∀ s : State,
    exec .getfmt s = .next { s with answered := s.answered ++ [⟨s.issuer, .getfmt, .fmt s.dfmt⟩] } ∧
    encode .getfmt = [0x30#8] ∧
    (Response.fmt s.dfmt).frame = [0x00#8, (formatCode s.dfmt).setWidth 8] ∧
    (s.dfmt = .format4 → (Response.fmt s.dfmt).frame = [0x00#8, 0x03#8]) ∧
    (∀ sig : CfgSignals, (∀ f, sig.sample ≠ .present (formatName f)) →
      let fresh := State.afterReset sig
      exec .getfmt fresh = .next { fresh with answered :=
        fresh.answered ++ [⟨fresh.issuer, .getfmt, .fmt .format1⟩] })

/-- R80: SETFMT. -/
def Obligations.SetfmtReplacesDefault : Prop :=
  ∀ (s : State) (fmt : FloatFormat),
    exec (.setfmt fmt) s =
      .next { s with dfmt := fmt, answered := s.answered ++ [⟨s.issuer, .setfmt fmt, .ack⟩] } ∧
    encode (.setfmt fmt) = [0x40#8 + (formatCode fmt).setWidth 8] ∧
    Response.ack.frame = [0x00#8] ∧
    (fmt = .format4 → formatCode fmt = 0b11#2 ∧ encode (.setfmt fmt) = [0x43#8] ∧
      ∀ t, exec (.setfmt fmt) s = .next t → ∃ u, exec (.encodeD 0x3F9D70A4#32) t = .next u ∧
        lastResponse u = some (.pair ⟨0x9D3F#16, 0xA470#16⟩))

/-! ### What the commands leave unchanged -/

/-- R71, R16: the frame of every command. DFMT changes by SETFMT only, to its operand; the phase, the strap, the inputs still
to come and the issuer stay; exactly one answer is added, to the issuer. -/
def Obligations.CommandsChangeOnlyTheirOwn : Prop :=
  ∀ (i : Instr) (s t : State), exec i s = .next t →
    (∀ f, i = .setfmt f → t.dfmt = f) ∧ ((∀ f, i ≠ .setfmt f) → t.dfmt = s.dfmt) ∧
    t.phase = s.phase ∧ t.strap = s.strap ∧ t.port = s.port ∧ t.issuer = s.issuer ∧
    ∃ r, t.answered = s.answered ++ [⟨s.issuer, i, r⟩]

/-- R16, R107, R80: a step that changes DFMT is a reset, which loads the resolved strap, or a SETFMT, which loads its operand.
The second case, a reset during which the strap moves, is the MODEL's choice (log 7): R110 (1) asks for a stable strap through
reset, and the model performs that reset only where the configuration presented stays the same. -/
def Obligations.OnlyResetAndSetfmtWriteDefault : Prop :=
  ∀ s t : State, step s = .next t → t.dfmt ≠ s.dfmt →
    (∃ rest, s.port = .reset :: rest ∧ t.dfmt = resolveDefault s.strap.sample) ∨
    (∃ sig rest, s.port = .strapDuringReset sig :: rest ∧ sig.sample = s.strap.sample ∧
      t.dfmt = resolveDefault s.strap.sample) ∨
    (∃ host frame rest f, s.port = .command host frame :: rest ∧ decodeFrame frame = .ok (.setfmt f) ∧ t.dfmt = f)

/-- R70: an explicit form answers the same under every default, and leaves the default as it was. -/
def Obligations.ExplicitFormsIgnoreDefault : Prop :=
  ∀ s : State,
    (∀ (f : FloatFormat) (v : Pattern32), ∃ r, ∀ d, exec (.encode f v) { s with dfmt := d } =
      .next { s with dfmt := d, answered := s.answered ++ [⟨s.issuer, .encode f v, r⟩] }) ∧
    (∀ (f : FloatFormat) (regs : List Word16), ∃ r, ∀ d, exec (.decode f regs) { s with dfmt := d } =
      .next { s with dfmt := d, answered := s.answered ++ [⟨s.issuer, .decode f regs, r⟩] })

/-- R91, R92, R93: INVALID_INPUT is answered exactly for a DECODE or DECODE.D whose sequence is not two words; it is the
single byte `0x01`, and the block's own state is what it was. -/
def Obligations.InvalidInputLeavesNoTrace : Prop :=
  ∀ (i : Instr) (s t : State), exec i s = .next t →
    (lastResponse t = some (.error .invalidInput) ↔ wrongLength i = true) ∧
    (wrongLength i = true → t = { s with answered := s.answered ++ [⟨s.issuer, i, .error .invalidInput⟩] } ∧
      (Response.error .invalidInput).frame = [0x01#8])

/-- R94: after a failed command the block performs the next one as if the failed one had not been. -/
def Obligations.NextCommandAfterErrorIsNormal : Prop :=
  ∀ (bad i : Instr) (s : State), wrongLength bad = true →
    ∃ t u u', exec bad s = .next t ∧ exec i t = .next u ∧ exec i s = .next u' ∧
      lastResponse u = lastResponse u' ∧ u.dfmt = u'.dfmt ∧ u.answered = t.answered ++ u'.answered.drop s.answered.length

/-- R50, R102: every command of any state answers, in that very command, exactly one response of its row of the table. -/
def Obligations.EveryCommandAnswersItsRow : Prop :=
  ∀ (i : Instr) (s : State), ∃ t r, exec i s = .next t ∧
    t.answered = s.answered ++ [⟨s.issuer, i, r⟩] ∧ fitsRow i r = true ∧ r = answerUnder s.dfmt i

/-- R50: for one request the response frame tells the response, and has the length of its row. -/
def Obligations.ResponseFramesTellTheResponse : Prop :=
  ∀ (i : Instr) (r : Response), fitsRow i r = true →
    (∀ r', fitsRow i r' = true → r.frame = r'.frame → r = r') ∧
    r.frame.length = (match i with
      | .encode _ _ => 5
      | .encodeD _ => 5
      | .decode _ _ => if r = .error .invalidInput then 1 else 5
      | .decodeD _ => if r = .error .invalidInput then 1 else 5
      | .getfmt => 2
      | .setfmt _ => 1) ∧
    r.frame = (match r with
      | .pair p => [0x00#8, p.r0.extractLsb' 8 8, p.r0.extractLsb' 0 8, p.r1.extractLsb' 8 8, p.r1.extractLsb' 0 8]
      | .value v => [0x00#8, v.extractLsb' 24 8, v.extractLsb' 16 8, v.extractLsb' 8 8, v.extractLsb' 0 8]
      | .fmt f => [0x00#8, 0#6 ++ formatCode f]
      | .ack => [0x00#8]
      | .error .invalidInput => [0x01#8])

/-- R51: STATUS is `0x00` or `0x01`; `0x01` exactly for a DECODE or DECODE.D of a wrong length. -/
def Obligations.StatusIsOkOrInvalidInput : Prop :=
  ∀ (i : Instr) (s t : State) (r : Response), exec i s = .next t → lastResponse t = some r →
    r.status = if wrongLength i then 0x01#8 else 0x00#8

/-- R31: a command other than SETFMT, repeated, gives the same response; SETFMT, repeated, leaves the same default. -/
def Obligations.RepeatedCommandsAreIdempotent : Prop :=
  ∀ (i : Instr) (s : State), ∃ t u, exec i s = .next t ∧ exec i t = .next u ∧
    lastResponse u = lastResponse t ∧ u.dfmt = t.dfmt

/-- R54: a D-form is GETFMT and then the explicit form with the format it returned, if no SETFMT falls between. -/
def Obligations.DFormIsGetfmtThenExplicit : Prop :=
  ∀ s : State, ∃ t f, exec .getfmt s = .next t ∧ lastResponse t = some (.fmt f) ∧
    (∀ v, ∃ u u', exec (.encode f v) t = .next u ∧ exec (.encodeD v) s = .next u' ∧
      lastResponse u = lastResponse u' ∧ u.dfmt = u'.dfmt) ∧
    (∀ regs, ∃ u u', exec (.decode f regs) t = .next u ∧ exec (.decodeD regs) s = .next u' ∧
      lastResponse u = lastResponse u' ∧ u.dfmt = u'.dfmt)

/-- R113: a SETFMT is in force for the very next command, whatever that command is. -/
def Obligations.SetfmtIsInForceForTheNextCommand : Prop :=
  ∀ (f : FloatFormat) (i : Instr) (s : State), ∃ t u, exec (.setfmt f) s = .next t ∧ exec i t = .next u ∧
    lastResponse u = some (answerUnder f i)

/-! ### Steps: the port, reset, the strap -/

/-- R33, R42: a step of a block that has been reset performs the request the accepted frame spells, in the state whose port
has moved on and whose issuer is the frame's host. -/
def Obligations.StepPerformsTheDecodedCommand : Prop :=
  ∀ (s : State) (host : Nat) (frame : List Byte) (rest : List Event) (i : Instr),
    s.phase = .ready → s.port = .command host frame :: rest → decodeFrame frame = .ok i →
    step s = exec i { s with port := rest, issuer := host }

/-- R24: a command before the first reset is refused, whatever it is. -/
def Obligations.CommandBeforeFirstResetIsRefused : Prop :=
  ∀ (s : State) (host : Nat) (frame : List Byte) (rest : List Event),
    s.phase = .beforeReset → s.port = .command host frame :: rest → ∃ r, step s = .refused r ∧
      ∀ i, decodeFrame frame = .ok i → r = .commandBeforeReset

/-- R24, MODEL's field (log 9): before the first reset the field that stands for DFMT influences nothing: the same inputs are
refused, and the states that follow differ in it alone, or, once reset is applied, not at all. -/
def Obligations.NoDefaultBeforeTheFirstReset : Prop :=
  ∀ (s : State) (d : FloatFormat), s.phase = .beforeReset →
    (∀ r, step s = .refused r ↔ step { s with dfmt := d } = .refused r) ∧
    (∀ t, step s = .next t → step { s with dfmt := d } =
      .next (if t.phase = .beforeReset then { t with dfmt := d } else t))

/-- R109, R110 (1): a command and a reset that overlap are refused, and so is a reset during which the strap comes to present
another configuration. That an overlap is one input (log 6) and that the second is refused (log 7) is the MODEL's choice. -/
def Obligations.OverlappingResetIsRefused : Prop :=
  ∀ (s : State) (rest : List Event),
    (∀ host frame, s.port = .commandDuringReset host frame :: rest → step s = .refused .commandDuringReset) ∧
    (∀ sig, s.port = .strapDuringReset sig :: rest → sig.sample ≠ s.strap.sample →
      step s = .refused .strapDuringReset)

/-- R110 (1), R107, U7: a reset during which only ignored signals of the strap move (any while `CFG_PRESENT` stays 0) loads DFMT
and admits commands, and does nothing else but follow the strap. That R110 (1) allows such a reset is the MODEL's reading
(log 7). -/
def Obligations.ResetIgnoresUnselectedStrapSignals : Prop :=
  ∀ (s : State) (sig : CfgSignals) (rest : List Event), s.port = .strapDuringReset sig :: rest →
    (sig.sample = s.strap.sample →
      step s = .next { s with port := rest, strap := sig, dfmt := resolveDefault s.strap.sample, phase := .ready }) ∧
    (sig.present = false → s.strap.present = false →
      step s = .next { s with port := rest, strap := sig, dfmt := .format1, phase := .ready })

/-- R97, R117; MODEL's choice (log 5): with no input left a step changes nothing. -/
def Obligations.NothingHappensWithoutInput : Prop :=
  ∀ s : State, s.port = [] → step s = .next s

/-- R107: reset loads DFMT with the resolved strap and admits commands, and does nothing else, from any state. -/
def Obligations.ResetLoadsTheResolvedStrap : Prop :=
  ∀ (s : State) (rest : List Event), s.port = .reset :: rest →
    step s = .next { s with port := rest, dfmt := resolveDefault s.strap.sample, phase := .ready }

/-- R109: a reset discards what earlier commands made of DFMT. -/
def Obligations.ResetDiscardsTheEarlierDefault : Prop :=
  ∀ (s : State) (d : FloatFormat) (rest : List Event), s.port = .reset :: rest →
    ∃ t, step s = .next t ∧ step { s with dfmt := d } = .next t

/-- R23: the reset value of DFMT, for every level of the strap. -/
def Obligations.ResetValueOfDefault : Prop :=
  ∀ sig : CfgSignals,
    (State.afterReset sig).dfmt = resolveDefault sig.sample ∧
    (∀ f, sig.sample = .present (formatName f) → (State.afterReset sig).dfmt = f) ∧
    ((∀ f, sig.sample ≠ .present (formatName f)) → (State.afterReset sig).dfmt = .format1)

/-- The model's constant `State.reset`. That its strap is absent, its port empty, its issuer 0 and nothing answered is the
MODEL's choice (log 1, log 2); that DFMT is then FORMAT_1 is R23. -/
def Obligations.ResetConstant : Prop :=
  State.reset.dfmt = .format1 ∧ State.reset.phase = .ready ∧ State.reset.strap.sample = .absent ∧
  State.reset.port = [] ∧ State.reset.issuer = 0 ∧ State.reset.answered = []

/-- R81, R82: exact match against the four names, which are these bytes, and FORMAT_1 for everything else; among what falls
back are other spellings of a name. -/
def Obligations.ResolveDefaultMatchesExactly : Prop :=
  formatName .format1 = [0x46#8, 0x4F#8, 0x52#8, 0x4D#8, 0x41#8, 0x54#8, 0x5F#8, 0x31#8] ∧
  formatName .format2 = [0x46#8, 0x4F#8, 0x52#8, 0x4D#8, 0x41#8, 0x54#8, 0x5F#8, 0x32#8] ∧
  formatName .format3 = [0x46#8, 0x4F#8, 0x52#8, 0x4D#8, 0x41#8, 0x54#8, 0x5F#8, 0x33#8] ∧
  formatName .format4 = [0x46#8, 0x4F#8, 0x52#8, 0x4D#8, 0x41#8, 0x54#8, 0x5F#8, 0x34#8] ∧
  resolveDefault .absent = .format1 ∧
  (∀ f, resolveDefault (.present (formatName f)) = f) ∧
  (∀ s, (∀ f, s ≠ formatName f) → resolveDefault (.present s) = .format1) ∧
  (∀ s : List Byte, s.length ≠ 8 → ∀ f, s ≠ formatName f) ∧
  resolveDefault (.present [0x66#8, 0x6F#8, 0x72#8, 0x6D#8, 0x61#8, 0x74#8, 0x5F#8, 0x33#8]) = .format1 ∧
  resolveDefault (.present [0x46#8, 0x4F#8, 0x52#8, 0x4D#8, 0x41#8, 0x54#8, 0x5F#8, 0x32#8, 0x20#8]) = .format1

/-- R52: a string cut to any `CFG_MAX_LEN` of 9 or more resolves as the whole string does, so what reset samples from the
driven signals resolves as the host's configuration; signals that are not selected influence nothing (U7). -/
def Obligations.CutStringResolvesAlike : Prop :=
  (∀ (maxLen : Nat) (s : List Byte), 9 ≤ maxLen → resolveDefault (.present (s.take maxLen)) = resolveDefault (.present s)) ∧
  (∀ cfg : Cfg, resolveDefault (CfgSignals.ofCfg cfg).sample = resolveDefault cfg) ∧
  (∀ bytes : List Byte, (CfgSignals.mk false bytes).sample = .absent)

/-- R83: after a reset whose strap is absent or spells no name, every command answers, and leaves DFMT, as after a reset whose
strap spells `FORMAT_1`. -/
def Obligations.FallbackCannotBeDetected : Prop :=
  ∀ (sig named : CfgSignals) (i : Instr),
    (∀ f, sig.sample ≠ .present (formatName f)) → named.sample = .present (formatName .format1) →
    ∃ t u, exec i (State.afterReset sig) = .next t ∧ exec i (State.afterReset named) = .next u ∧
      t.answered = u.answered ∧ t.dfmt = u.dfmt

/-- R85: driving the strap leaves DFMT, and no command's response or effect depends on the strap. -/
def Obligations.StrapIsConsultedByResetOnly : Prop :=
  (∀ (s : State) (sig : CfgSignals) (rest : List Event), s.port = .strap sig :: rest →
    step s = .next { s with port := rest, strap := sig }) ∧
  (∀ (i : Instr) (s : State) (sig : CfgSignals), ∃ t, exec i s = .next t ∧
    exec i { s with strap := sig } = .next { t with strap := sig })

/-! ### Invariants of every step -/

/-- Base case of `EveryStepKeepsAnswersLawful`. It holds because nothing has been answered in `State.afterReset`, which is the
MODEL's choice (log 2): the spec gives the record no reset value. -/
def Obligations.AnswersLawfulAfterReset : Prop :=
  ∀ sig : CfgSignals, answersLawful (State.afterReset sig)

/-- R15, R34, R70: whatever the inputs and their order, a recorded answer is never anything but the answer of its request
under one of the four formats, and for a request that does not read DFMT its one answer. -/
def Obligations.EveryStepKeepsAnswersLawful : Prop :=
  (∀ s t : State, answersLawful s → step s = .next t → answersLawful t) ∧
  (∀ s : State, answersLawful s → ∀ x ∈ s.answered, readsDefault x.request = false →
    ∀ d, x.response = answerUnder d x.request)

/-- Base case of `EveryStepKeepsHostsWithin`, for every `N_HOSTS` and so for its default. It holds because `State.afterReset` has
no input and no answer, which is the MODEL's choice (log 2). -/
def Obligations.HostsWithinAfterReset : Prop :=
  (∀ (nHosts : Nat) (sig : CfgSignals), (State.afterReset sig).hostsWithin nHosts = true) ∧
  (coreFor Config.nHostsDefault).reset.hostsWithin Config.nHostsDefault = true

/-- R5, R93, R101: whatever `N_HOSTS` is, with its hosts only the machine of `N_HOSTS` hosts steps as the block does, and every
command to come and every answer given stays one of theirs (log 19). -/
def Obligations.EveryStepKeepsHostsWithin : Prop :=
  ∀ (nHosts : Nat) (s t : State), s.hostsWithin nHosts = true → step s = .next t →
    t.hostsWithin nHosts = true ∧ stepFor nHosts s = .next t

/-- R24, R109, R117: a step never un-resets the block and never takes back an answer. -/
def Obligations.StepsKeepReadinessAndAnswers : Prop :=
  ∀ s t : State, step s = .next t →
    (s.phase = .ready → t.phase = .ready) ∧ (∃ new, t.answered = s.answered ++ new ∧ new.length ≤ 1) ∧
    t.port = s.port.tail

/-! ### Runs -/

/-- R33, R75, R117: from any state whose inputs meet the hosts' duties, the machine runs all of them and ends with exactly the
answers and the default that the closed forms of R61 and R62 and the order of the inputs give. That the duty of R110 (1) is met
by a reset during which only ignored strap signals move is the MODEL's reading (log 7). -/
def Obligations.RunIsTheReference : Prop :=
  ∀ s : State, dutiesMet s.phase s.strap s.port = true → ∃ t, runPort s = .next t ∧
    t.answered = s.answered ++ answersFrom s.dfmt s.strap s.port ∧
    t.dfmt = defaultAfterAll s.dfmt s.strap s.port ∧ t.port = []

/-- R84: read after write. After a reset and any commands of any hosts, the next D-form command or GETFMT sees the operand of
the latest SETFMT, or the resolved strap if there has been none. -/
def Obligations.ReadAfterWrite : Prop :=
  ∀ (s : State) (requests : List (Nat × Instr)) (host : Nat), (∀ r ∈ requests, r.2.wf = true) →
    let d := latestSetfmt (resolveDefault s.strap.sample) requests
    let inputs := fun i => Event.reset :: (commandEvents requests ++ commandEvents [(host, i)])
    (∃ t, runPort { s with port := inputs .getfmt } = .next t ∧
      t.answered.getLast? = some ⟨host, .getfmt, .fmt d⟩) ∧
    (∀ v, ∃ t, runPort { s with port := inputs (.encodeD v) } = .next t ∧
      t.answered.getLast? = some ⟨host, .encodeD v, .pair (enc v d)⟩) ∧
    (∀ a b, ∃ t, runPort { s with port := inputs (.decodeD [a, b]) } = .next t ∧
      t.answered.getLast? = some ⟨host, .decodeD [a, b], .value (dec ⟨a, b⟩ d)⟩)

/-- R102, R115: if the hosts meet their duties every command is answered exactly once, in acceptance order, to the host that
issued it, with a response of its row. That the duty of R110 (1) is met by a reset during which only ignored strap signals move
is the MODEL's reading (log 7). -/
def Obligations.EveryCommandIsAnsweredOnceInOrder : Prop :=
  ∀ s : State, dutiesMet s.phase s.strap s.port = true → ∃ t new, runPort s = .next t ∧ t.answered = s.answered ++ new ∧
    new.map (fun x => (x.host, x.request)) = issued s.port ∧ ∀ x ∈ new, fitsRow x.request x.response = true

/-- R33, R34: under every interleaving of two hosts' commands each host gets the answers to its own commands, in the order it
issued them. -/
def Obligations.EachHostsOrderIsKept : Prop :=
  ∀ (s : State) (a b : Nat) (as bs : List Event), a ≠ b → s.phase = .ready → Interleaving as bs s.port →
    (∀ e ∈ as, ∃ frame i, e = .command a frame ∧ decodeFrame frame = .ok i) →
    (∀ e ∈ bs, ∃ frame i, e = .command b frame ∧ decodeFrame frame = .ok i) →
    ∃ t new, runPort s = .next t ∧ t.answered = s.answered ++ new ∧
      (new.filter fun x => x.host == a).map Exchange.request = (issued as).map Prod.snd ∧
      (new.filter fun x => x.host == b).map Exchange.request = (issued bs).map Prod.snd

/-- R5, R33, R34, D27: for every `N_HOSTS` and every interleaving of its hosts' programs the machine of `N_HOSTS` hosts runs all
commands, and each host gets the answers to its own program in the order it issued it. With `N_HOSTS` = 1 the order of all
answers is the one host's program order. -/
def Obligations.EachOfNHostsIsAnsweredInItsOrder : Prop :=
  ∀ (nHosts : Nat) (s : State) (programs : Vector (List Instr) nHosts) (requests : List (Nat × Instr)),
    s.phase = .ready → s.hostsWithin nHosts = true → interleaves nHosts programs requests →
    (∀ r ∈ requests, r.2.wf = true) → s.port = commandEvents requests →
    ∃ t new, Host.Core.run (coreFor nHosts) s.port.length s = .next t ∧ t.answered = s.answered ++ new ∧
      (∀ host : Fin nHosts, (new.filter fun x => x.host == host.val).map Exchange.request = programs[host]) ∧
      (nHosts = 1 → ∀ host : Fin nHosts, new.map Exchange.request = programs[host])

/-- R34 (a), R111: a command that reads the default, racing a SETFMT of another host, answers under the old or the new default
and nothing else; each of the two happens in some interleaving. -/
def Obligations.RacingCommandSeesOldOrNewDefault : Prop :=
  ∀ (s : State) (a b : Nat) (f : FloatFormat) (i : Instr), s.phase = .ready → readsDefault i = true → i.wf = true →
    (∀ port, Interleaving (commandEvents [(a, .setfmt f)]) (commandEvents [(b, i)]) port →
      ∃ t r, runPort { s with port := port } = .next t ∧ t.dfmt = f ∧
        (t.answered = s.answered ++ [⟨a, .setfmt f, .ack⟩, ⟨b, i, r⟩] ∧ r = answerUnder f i ∨
         t.answered = s.answered ++ [⟨b, i, r⟩, ⟨a, .setfmt f, .ack⟩] ∧ r = answerUnder s.dfmt i)) ∧
    (∀ d, d = s.dfmt ∨ d = f →
      ∃ port t, Interleaving (commandEvents [(a, .setfmt f)]) (commandEvents [(b, i)]) port ∧
        runPort { s with port := port } = .next t ∧ ⟨b, i, answerUnder d i⟩ ∈ t.answered)

/-- R15, R34 (a): without a reset, every answer of a run of any length is under the default the run began with or under the
operand of some SETFMT among its inputs, never under a third format. -/
def Obligations.NoThirdFormat : Prop :=
  ∀ (k : Nat) (s t : State), (∀ e ∈ s.port, appliesReset e = false) → Host.Core.run Sys2Proof.core k s = .next t →
    ∃ new, t.answered = s.answered ++ new ∧
      ∀ x ∈ new, ∃ d, (d = s.dfmt ∨ d ∈ setfmtOperands s.port) ∧ x.response = answerUnder d x.request

/-- R34, R84: the three orders of two hosts' commands, with the outcomes the rules give each, after a reset with the strap
absent. The list of all answers begins empty there, which is the MODEL's choice (log 2). -/
def Obligations.TwoHostRaceOutcomes : Prop :=
  let setA : Event := .command 0 [0x41#8]
  let encD : Event := .command 1 [0x14#8, 0x3F#8, 0x9D#8, 0x70#8, 0xA4#8]
  let enc1 : Event := .command 1 [0x10#8, 0x3F#8, 0x9D#8, 0x70#8, 0xA4#8]
  let outcome := fun port => match runPort { State.reset with port := port } with
    | .next t => some (t.answered.map (fun x => (x.host, x.response)), t.dfmt)
    | _ => none
  let oldPair : Response := .pair ⟨0x70A4#16, 0x3F9D#16⟩
  let newPair : Response := .pair ⟨0x3F9D#16, 0x70A4#16⟩
  outcome [setA, encD, enc1] = some ([(0, .ack), (1, newPair), (1, oldPair)], .format2) ∧
  outcome [encD, setA, enc1] = some ([(1, oldPair), (0, .ack), (1, oldPair)], .format2) ∧
  outcome [encD, enc1, setA] = some ([(1, oldPair), (1, oldPair), (0, .ack)], .format2)
end

