-- ==== Sys2Proof/Laws/Frames.lean ====
section
/-!
SUPPORT. The small lemmas of the frame codec: format codes, words as bytes, and lengths.
-/
namespace Sys2Proof

@[simp] theorem formatOfCode_formatCode (f : FloatFormat) : formatOfCode (formatCode f) = f := by
  cases f <;> rfl

@[simp] theorem valueBytes_length (v : Pattern32) : (valueBytes v).length = 4 := rfl

@[simp] theorem wordBytes_length (w : Word16) : (wordBytes w).length = 2 := rfl

@[simp] theorem wordsBytes_length (ws : List Word16) : (wordsBytes ws).length = 2 * ws.length := by
  induction ws with
  | nil => rfl
  | cons w ws ih => simp [wordsBytes, ih]; omega

@[simp] theorem regsBytes_length (ws : List Word16) : (regsBytes ws).length = 1 + 2 * ws.length := by
  simp [regsBytes]; omega

@[simp] theorem wordOfBytes_slices (w : Word16) :
    wordOfBytes (w.extractLsb' 8 8) (w.extractLsb' 0 8) = w := by
  apply BitVec.eq_of_getLsbD_eq
  intro i hi
  change BitVec.getLsbD (w.extractLsb' 8 8 ++ w.extractLsb' 0 8) i = w.getLsbD i
  rw [BitVec.getLsbD_append, BitVec.getLsbD_extractLsb', BitVec.getLsbD_extractLsb']
  by_cases h : i < 8
  · simp [h]
  · have h8 : i - 8 < 8 := by omega
    have hi8 : 8 + (i - 8) = i := by omega
    simp [h, h8, hi8]

@[simp] theorem wordsOfBytes_wordsBytes (ws : List Word16) : wordsOfBytes (wordsBytes ws) = ws := by
  induction ws with
  | nil => rfl
  | cons w ws ih => simp [wordsBytes, wordBytes, wordsOfBytes, ih]

end Sys2Proof
end

