-- ==== Sys2Proof/Laws/State.lean ====
section
/-!
SUPPORT. One lemma per field per update of State, all true by rfl, so that no proof unfolds a record update.
-/
namespace Sys2Proof.Machine

@[simp] theorem State.writeDfmt_dfmt (s : State) (f : FloatFormat) :
    (s.writeDfmt f).dfmt = f := rfl
@[simp] theorem State.writeDfmt_phase (s : State) (f : FloatFormat) :
    (s.writeDfmt f).phase = s.phase := rfl
@[simp] theorem State.writeDfmt_strap (s : State) (f : FloatFormat) :
    (s.writeDfmt f).strap = s.strap := rfl
@[simp] theorem State.writeDfmt_port (s : State) (f : FloatFormat) :
    (s.writeDfmt f).port = s.port := rfl
@[simp] theorem State.writeDfmt_issuer (s : State) (f : FloatFormat) :
    (s.writeDfmt f).issuer = s.issuer := rfl
@[simp] theorem State.writeDfmt_answered (s : State) (f : FloatFormat) :
    (s.writeDfmt f).answered = s.answered := rfl

@[simp] theorem State.respond_dfmt (s : State) (i : Instr) (r : Response) :
    (s.respond i r).dfmt = s.dfmt := rfl
@[simp] theorem State.respond_phase (s : State) (i : Instr) (r : Response) :
    (s.respond i r).phase = s.phase := rfl
@[simp] theorem State.respond_strap (s : State) (i : Instr) (r : Response) :
    (s.respond i r).strap = s.strap := rfl
@[simp] theorem State.respond_port (s : State) (i : Instr) (r : Response) :
    (s.respond i r).port = s.port := rfl
@[simp] theorem State.respond_issuer (s : State) (i : Instr) (r : Response) :
    (s.respond i r).issuer = s.issuer := rfl
@[simp] theorem State.respond_answered (s : State) (i : Instr) (r : Response) :
    (s.respond i r).answered = s.answered ++ [⟨s.issuer, i, r⟩] := rfl

@[simp] theorem State.raiseInvalidInput_dfmt (s : State) (i : Instr) :
    (s.raiseInvalidInput i).dfmt = s.dfmt := rfl
@[simp] theorem State.raiseInvalidInput_phase (s : State) (i : Instr) :
    (s.raiseInvalidInput i).phase = s.phase := rfl
@[simp] theorem State.raiseInvalidInput_strap (s : State) (i : Instr) :
    (s.raiseInvalidInput i).strap = s.strap := rfl
@[simp] theorem State.raiseInvalidInput_port (s : State) (i : Instr) :
    (s.raiseInvalidInput i).port = s.port := rfl
@[simp] theorem State.raiseInvalidInput_issuer (s : State) (i : Instr) :
    (s.raiseInvalidInput i).issuer = s.issuer := rfl
@[simp] theorem State.raiseInvalidInput_answered (s : State) (i : Instr) :
    (s.raiseInvalidInput i).answered = s.answered ++ [⟨s.issuer, i, .error .invalidInput⟩] := rfl

@[simp] theorem State.applyReset_dfmt (s : State) :
    (s.applyReset).dfmt = resolveDefault s.strap.sample := rfl
@[simp] theorem State.applyReset_phase (s : State) :
    (s.applyReset).phase = .ready := rfl
@[simp] theorem State.applyReset_strap (s : State) :
    (s.applyReset).strap = s.strap := rfl
@[simp] theorem State.applyReset_port (s : State) :
    (s.applyReset).port = s.port := rfl
@[simp] theorem State.applyReset_issuer (s : State) :
    (s.applyReset).issuer = s.issuer := rfl
@[simp] theorem State.applyReset_answered (s : State) :
    (s.applyReset).answered = s.answered := rfl

@[simp] theorem State.driveStrap_dfmt (s : State) (sig : CfgSignals) :
    (s.driveStrap sig).dfmt = s.dfmt := rfl
@[simp] theorem State.driveStrap_phase (s : State) (sig : CfgSignals) :
    (s.driveStrap sig).phase = s.phase := rfl
@[simp] theorem State.driveStrap_strap (s : State) (sig : CfgSignals) :
    (s.driveStrap sig).strap = sig := rfl
@[simp] theorem State.driveStrap_port (s : State) (sig : CfgSignals) :
    (s.driveStrap sig).port = s.port := rfl
@[simp] theorem State.driveStrap_issuer (s : State) (sig : CfgSignals) :
    (s.driveStrap sig).issuer = s.issuer := rfl
@[simp] theorem State.driveStrap_answered (s : State) (sig : CfgSignals) :
    (s.driveStrap sig).answered = s.answered := rfl

@[simp] theorem State.consume_dfmt (s : State) (rest : List Event) :
    (s.consume rest).dfmt = s.dfmt := rfl
@[simp] theorem State.consume_phase (s : State) (rest : List Event) :
    (s.consume rest).phase = s.phase := rfl
@[simp] theorem State.consume_strap (s : State) (rest : List Event) :
    (s.consume rest).strap = s.strap := rfl
@[simp] theorem State.consume_port (s : State) (rest : List Event) :
    (s.consume rest).port = rest := rfl
@[simp] theorem State.consume_issuer (s : State) (rest : List Event) :
    (s.consume rest).issuer = s.issuer := rfl
@[simp] theorem State.consume_answered (s : State) (rest : List Event) :
    (s.consume rest).answered = s.answered := rfl

@[simp] theorem State.accept_dfmt (s : State) (host : Nat) (rest : List Event) :
    (s.accept host rest).dfmt = s.dfmt := rfl
@[simp] theorem State.accept_phase (s : State) (host : Nat) (rest : List Event) :
    (s.accept host rest).phase = s.phase := rfl
@[simp] theorem State.accept_strap (s : State) (host : Nat) (rest : List Event) :
    (s.accept host rest).strap = s.strap := rfl
@[simp] theorem State.accept_port (s : State) (host : Nat) (rest : List Event) :
    (s.accept host rest).port = rest := rfl
@[simp] theorem State.accept_issuer (s : State) (host : Nat) (rest : List Event) :
    (s.accept host rest).issuer = host := rfl
@[simp] theorem State.accept_answered (s : State) (host : Nat) (rest : List Event) :
    (s.accept host rest).answered = s.answered := rfl

@[simp] theorem State.presentFrame_dfmt (s : State) (frame : List Byte) :
    (s.presentFrame frame).dfmt = s.dfmt := rfl
@[simp] theorem State.presentFrame_phase (s : State) (frame : List Byte) :
    (s.presentFrame frame).phase = .ready := rfl
@[simp] theorem State.presentFrame_strap (s : State) (frame : List Byte) :
    (s.presentFrame frame).strap = s.strap := rfl
@[simp] theorem State.presentFrame_port (s : State) (frame : List Byte) :
    (s.presentFrame frame).port = .command 0 frame :: s.port := rfl
@[simp] theorem State.presentFrame_issuer (s : State) (frame : List Byte) :
    (s.presentFrame frame).issuer = s.issuer := rfl
@[simp] theorem State.presentFrame_answered (s : State) (frame : List Byte) :
    (s.presentFrame frame).answered = s.answered := rfl

@[simp] theorem State.readDfmt_eq (s : State) : s.readDfmt = s.dfmt := rfl

@[simp] theorem State.afterReset_dfmt (sig : CfgSignals) : (State.afterReset sig).dfmt = resolveDefault sig.sample := rfl
@[simp] theorem State.afterReset_phase (sig : CfgSignals) : (State.afterReset sig).phase = .ready := rfl
@[simp] theorem State.afterReset_strap (sig : CfgSignals) : (State.afterReset sig).strap = sig := rfl
@[simp] theorem State.afterReset_port (sig : CfgSignals) : (State.afterReset sig).port = [] := rfl
@[simp] theorem State.afterReset_issuer (sig : CfgSignals) : (State.afterReset sig).issuer = 0 := rfl
@[simp] theorem State.afterReset_answered (sig : CfgSignals) : (State.afterReset sig).answered = [] := rfl

end Sys2Proof.Machine
end

