-- ==== Sys2Proof/Laws/Ops.lean ====
section
/-!
SUPPORT. One lemma per shared operation, saying once what it can do; the meanings' shape; and the inversion lemma of `step`.
-/
namespace Sys2Proof.Machine

/-- The length check: a pair comes out exactly for a sequence of those two words. -/
theorem pairOfRegs_eq_some {regs : List Word16} {p : RegisterPair} :
    pairOfRegs regs = some p ↔ regs = [p.r0, p.r1] := by
  match regs with
  | [] => simp [pairOfRegs]
  | [_] => simp [pairOfRegs]
  | [a, b] => cases p; simp [pairOfRegs]
  | _ :: _ :: _ :: _ => simp [pairOfRegs]

/-- The length check fails exactly when the length is not two. -/
theorem pairOfRegs_eq_none {regs : List Word16} : pairOfRegs regs = none ↔ regs.length ≠ 2 := by
  match regs with
  | [] => simp [pairOfRegs]
  | [_] => simp [pairOfRegs]
  | [_, _] => simp [pairOfRegs]
  | _ :: _ :: _ :: _ => simp [pairOfRegs]

@[simp] theorem respondDecoded_two (s : State) (i : Instr) (a b : Word16) (f : FloatFormat) :
    s.respondDecoded i [a, b] f = s.respond i (.value (dec ⟨a, b⟩ f)) := rfl

theorem respondDecoded_wrong_length (s : State) (i : Instr) {regs : List Word16} (f : FloatFormat)
    (h : regs.length ≠ 2) : s.respondDecoded i regs f = s.raiseInvalidInput i := by
  simp [State.respondDecoded, pairOfRegs_eq_none.mpr h]

/-- All that `respondDecoded` can do: answer the decoded value of exactly two words, or answer INVALID_INPUT. -/
theorem respondDecoded_cases (s : State) (i : Instr) (regs : List Word16) (f : FloatFormat) :
    (∃ a b, regs = [a, b] ∧ s.respondDecoded i regs f = s.respond i (.value (dec ⟨a, b⟩ f))) ∨
    (regs.length ≠ 2 ∧ s.respondDecoded i regs f = s.respond i (.error .invalidInput)) := by
  by_cases h : regs.length = 2
  · obtain ⟨a, b, rfl⟩ := List.length_eq_two.mp h
    exact .inl ⟨a, b, rfl, rfl⟩
  · exact .inr ⟨h, respondDecoded_wrong_length s i f h⟩

/-- All that the port does with a command. -/
theorem admitCommand_cases (s : State) (host : Nat) (frame : List Byte) (rest : List Event) :
    (∃ e, decodeFrame frame = .error e ∧ s.admitCommand host frame rest = .refuse (.invalidRequest e)) ∨
    (∃ i, decodeFrame frame = .ok i ∧
      ((s.phase = .beforeReset ∧ s.admitCommand host frame rest = .refuse .commandBeforeReset) ∨
       (s.phase = .ready ∧ s.admitCommand host frame rest = .perform i (s.accept host rest)))) := by
  cases hd : decodeFrame frame with
  | error e => exact .inl ⟨e, rfl, by simp [State.admitCommand, hd]⟩
  | ok i =>
    refine .inr ⟨i, rfl, ?_⟩
    cases hp : s.phase with
    | beforeReset => exact .inl ⟨rfl, by simp [State.admitCommand, hd, hp]⟩
    | ready => exact .inr ⟨rfl, by simp [State.admitCommand, hd, hp]⟩

/-- All that the port does with a reset during which the strap moves. -/
theorem resetWhileStrapMoves_cases (s : State) (sig : CfgSignals) (rest : List Event) :
    (sig.sample = s.strap.sample ∧
      s.resetWhileStrapMoves sig rest = .applied ((s.consume rest).driveStrap sig).applyReset) ∨
    (sig.sample ≠ s.strap.sample ∧ s.resetWhileStrapMoves sig rest = .refuse .strapDuringReset) := by
  by_cases h : sig.sample = s.strap.sample
  · exact .inl ⟨h, by simp [State.resetWhileStrapMoves, h]⟩
  · exact .inr ⟨h, by simp [State.resetWhileStrapMoves, h]⟩

/-- A step that answers a next state idled, applied reset (the strap still, or moving without changing what it presents),
followed the strap, or performed a command of a block that has been reset. -/
theorem step_next_cases {s t : State} (h : step s = .next t) :
    (s.port = [] ∧ t = s) ∨
    (∃ rest, s.port = .reset :: rest ∧ t = (s.consume rest).applyReset) ∨
    (∃ sig rest, s.port = .strapDuringReset sig :: rest ∧ sig.sample = s.strap.sample ∧
      t = ((s.consume rest).driveStrap sig).applyReset) ∨
    (∃ sig rest, s.port = .strap sig :: rest ∧ t = (s.consume rest).driveStrap sig) ∨
    (∃ host frame rest i, s.port = .command host frame :: rest ∧ s.phase = .ready ∧
      decodeFrame frame = .ok i ∧ exec i (s.accept host rest) = .next t) := by
  match hp : s.port with
  | [] =>
    simp only [step, State.nextInput, hp, Host.Outcome.next.injEq] at h
    exact .inl ⟨rfl, h.symm⟩
  | .reset :: rest =>
    simp only [step, State.nextInput, hp, Host.Outcome.next.injEq] at h
    exact .inr (.inl ⟨rest, rfl, h.symm⟩)
  | .strap sig :: rest =>
    simp only [step, State.nextInput, hp, Host.Outcome.next.injEq] at h
    exact .inr (.inr (.inr (.inl ⟨sig, rest, rfl, h.symm⟩)))
  | .commandDuringReset _ _ :: _ => simp [step, State.nextInput, hp] at h
  | .strapDuringReset sig :: rest =>
    rcases resetWhileStrapMoves_cases s sig rest with ⟨hs, hr⟩ | ⟨_, hr⟩
    · simp only [step, State.nextInput, hp, hr, Host.Outcome.next.injEq] at h
      exact .inr (.inr (.inl ⟨sig, rest, rfl, hs, h.symm⟩))
    · simp [step, State.nextInput, hp, hr] at h
  | .command host frame :: rest =>
    rcases admitCommand_cases s host frame rest with ⟨e, _, ha⟩ | ⟨i, hd, ⟨_, ha⟩ | ⟨hr, ha⟩⟩
    · simp [step, State.nextInput, hp, ha] at h
    · simp [step, State.nextInput, hp, ha] at h
    · simp only [step, State.nextInput, hp, ha] at h
      exact .inr (.inr (.inr (.inr ⟨host, frame, rest, i, rfl, hr, hd, h⟩)))

end Sys2Proof.Machine
end

