-- ==== Sys2Proof/Laws/Hosts.lean ====
section
/-!
SUPPORT. The machine with `N_HOSTS` as its argument: what its step does, and its runs one step at a time.
-/
namespace Sys2Proof.Machine

theorem hostsWithin_iff {nHosts : Nat} {s : State} : s.hostsWithin nHosts = true ↔
    (∀ e ∈ s.port, e.fromHosts nHosts = true) ∧ ∀ x ∈ s.answered, x.host < nHosts := by
  simp [State.hostsWithin]

/-- Among its own hosts the machine steps as the block does. -/
theorem stepFor_of_within {nHosts : Nat} {s : State} (h : s.hostsWithin nHosts = true) : stepFor nHosts s = step s := by
  simp [stepFor, h]

/-- A next state of the machine is the block's, from a state with its own hosts only. -/
theorem stepFor_next {nHosts : Nat} {s t : State} (h : stepFor nHosts s = .next t) :
    s.hostsWithin nHosts = true ∧ step s = .next t := by
  unfold stepFor at h
  split at h
  · exact ⟨‹_›, h⟩
  · cases h

theorem runFor_succ_of_next {nHosts : Nat} {s t : State} (k : Nat) (h : stepFor nHosts s = .next t) :
    Host.Core.run (coreFor nHosts) (k + 1) s = Host.Core.run (coreFor nHosts) k t := by
  have h' : (coreFor nHosts).step s = .next t := h
  simp only [Host.Core.run, h']

end Sys2Proof.Machine
end

