-- ==== Sys2Proof/Laws/PerInstr.lean ====
section
/-!
SUPPORT. A family about every instruction as syntax: its frame has the length 30_encoding.md rule R42 gives its format.
-/
namespace Sys2Proof.Laws

/-- R42: the length column of the frame formats N, V and R. -/
def frameBytes : Instr → Nat
  | .encode _ _ => 5
  | .encodeD _ => 5
  | .decode _ regs => 2 + 2 * regs.length
  | .decodeD regs => 2 + 2 * regs.length
  | .getfmt => 1
  | .setfmt _ => 1

/-- The encoder's frame has that length. -/
def EncodedLength.Statement (i : Instr) : Prop := (encode i).length = frameBytes i

theorem EncodedLength.encode (fmt : FloatFormat) (value : Pattern32) :
    EncodedLength.Statement (.encode fmt value) := rfl

theorem EncodedLength.encodeD (value : Pattern32) : EncodedLength.Statement (.encodeD value) := rfl

theorem EncodedLength.decode (fmt : FloatFormat) (regs : List Word16) :
    EncodedLength.Statement (.decode fmt regs) := by
  simp [EncodedLength.Statement, Sys2Proof.encode, frameBytes]; omega

theorem EncodedLength.decodeD (regs : List Word16) : EncodedLength.Statement (.decodeD regs) := by
  simp [EncodedLength.Statement, Sys2Proof.encode, frameBytes]; omega

theorem EncodedLength.getfmt : EncodedLength.Statement .getfmt := rfl

theorem EncodedLength.setfmt (fmt : FloatFormat) : EncodedLength.Statement (.setfmt fmt) := rfl

end Sys2Proof.Laws
end

