-- ==== Sys2Proof/Tests/Slice0.lean ====
section
/-!
SUPPORT. Tests of one step or one definition each, expected values from spec/95_test_vectors.md and the rules' worked
examples; and for every statement with hypotheses a concrete case that meets them all (`witness_<statement>`).
-/
namespace Sys2Proof.Tests

open Sys2Proof Sys2Proof.Machine Sys2Proof.Safety

/-- A block that has been reset, with this default and these inputs to come. -/
def ready (d : FloatFormat) (port : List Event) : State := { State.reset with dfmt := d, port := port }

/-- A block before its first reset; `d` stands for no value. -/
def unreset (d : FloatFormat) (port : List Event) : State := { ready d port with phase := .beforeReset }

/-- The strap spelling `format_3`, which is not a name. -/
def lowerCase3 : CfgSignals := ⟨true, [0x66#8, 0x6F#8, 0x72#8, 0x6D#8, 0x61#8, 0x74#8, 0x5F#8, 0x33#8]⟩

/-- The response and the default a command leaves. -/
def outcome (i : Instr) (d : FloatFormat) : Option (Option Response × FloatFormat) :=
  match exec i (ready d []) with
  | .next t => some (lastResponse t, t.dfmt)
  | _ => none

/-! ### WellFormed: each check refuses an ill-formed term -/

theorem test_wf_refuses_decode_of_256_words : (Instr.decode .format1 (List.replicate 256 0#16)).wf = false := by
  simp only [Instr.wf, lenFits, List.length_replicate]
  decide

theorem test_wf_refuses_decodeD_of_256_words : (Instr.decodeD (List.replicate 256 0#16)).wf = false := by
  simp only [Instr.wf, lenFits, List.length_replicate]
  decide

theorem test_wf_accepts_decode_of_255_words : (Instr.decode .format1 (List.replicate 255 0#16)).wf = true := by
  simp only [Instr.wf, lenFits, List.length_replicate]
  decide

/-! ### Decode: words written out from R42, R43, R45 -/

/-- OP 0001, reserved 0, D 0, FMT 10, then VALUE. -/
theorem test_decode_encode :
    decodeFrame [0b00010010#8, 0x3F#8, 0x9D#8, 0x70#8, 0xA4#8] = .ok (.encode .format3 0x3F9D70A4#32) := by decide

/-- OP 0001, reserved 0, D 1, FMT 00. -/
theorem test_decode_encodeD :
    decodeFrame [0b00010100#8, 0x12#8, 0x34#8, 0x56#8, 0x78#8] = .ok (.encodeD 0x12345678#32) := by decide

/-- OP 0010, reserved 0, D 0, FMT 01, LEN 2, two words. -/
theorem test_decode_decode :
    decodeFrame [0b00100001#8, 0x02#8, 0x3F#8, 0x9D#8, 0x70#8, 0xA4#8] =
      .ok (.decode .format2 [0x3F9D#16, 0x70A4#16]) := by decide

/-- OP 0010, reserved 0, D 1, FMT 00, LEN 3, three words: a well-formed frame of a failing request (R47). -/
theorem test_decode_decodeD :
    decodeFrame [0b00100100#8, 0x03#8, 0x12#8, 0x34#8, 0x56#8, 0x78#8, 0x9A#8, 0xBC#8] =
      .ok (.decodeD [0x1234#16, 0x5678#16, 0x9ABC#16]) := by decide

/-- OP 0011, all else 0. -/
theorem test_decode_getfmt : decodeFrame [0b00110000#8] = .ok .getfmt := by decide

/-- OP 0100, FMT 11. -/
theorem test_decode_setfmt : decodeFrame [0b01000011#8] = .ok (.setfmt .format4) := by decide

/-- Section 6 of 95_test_vectors.md: a byte of each reserved class, by name. -/
theorem test_decode_reserved_bytes :
    ([0x00#8, 0x15#8, 0x18#8, 0x1C#8, 0x27#8, 0x31#8, 0x34#8, 0x44#8, 0x50#8, 0xFF#8].map decodeCommandByte) =
      [.error .reservedOp, .error .reservedDFormat, .error .reservedBit3, .error .reservedBit3, .error .reservedDFormat,
       .error .reservedGetfmt, .error .reservedGetfmt, .error .reservedSetfmt, .error .reservedOp,
       .error .reservedBit3] := by decide

/-- Section 6 of 95_test_vectors.md: the ill-formed frames. -/
theorem test_decode_ill_formed_frames :
    ([[0x10#8, 0x3F#8, 0x9D#8, 0x70#8], [0x10#8, 0x3F#8, 0x9D#8, 0x70#8, 0xA4#8, 0x00#8],
      [0x20#8, 0x02#8, 0x70#8, 0xA4#8, 0x3F#8], [0x20#8], [0x30#8, 0x00#8]].map decodeFrame) =
      [.error .cutShort, .error .overLong, .error .cutShort, .error .cutShort, .error .overLong] := by decide

/-! ### Commands -/

/-- R63's worked example, whatever DFMT holds. -/
theorem test_encode : outcome (.encode .format3 0x3F9D70A4#32) .format2 =
    some (some (.pair ⟨0xA470#16, 0x9D3F#16⟩), .format2) := by decide

/-- Section 3: a signalling NaN is moved bit for bit. -/
theorem test_encode_nan : outcome (.encode .format4 0x7F800001#32) .format1 =
    some (some (.pair ⟨0x807F#16, 0x0100#16⟩), .format1) := by decide

/-- Source example S1, through the default. -/
theorem test_encodeD : outcome (.encodeD 0x3F9D70A4#32) .format1 =
    some (some (.pair ⟨0x70A4#16, 0x3F9D#16⟩), .format1) := by decide

/-- Section 3, all bytes distinct, FORMAT_4. -/
theorem test_encodeD_format4 : outcome (.encodeD 0x12345678#32) .format4 =
    some (some (.pair ⟨0x3412#16, 0x7856#16⟩), .format4) := by decide

/-- Section 4, row 5, FORMAT_3. -/
theorem test_decode_value : outcome (.decode .format3 [0x1234#16, 0x5678#16]) .format1 =
    some (some (.value 0x78563412#32), .format1) := by decide

/-- Section 4, length errors: three words are not decoded from the first two. -/
theorem test_decode_three_words : outcome (.decode .format2 [0x3F9D#16, 0x70A4#16, 0x0000#16]) .format4 =
    some (some (.error .invalidInput), .format4) := by decide

/-- Section 5, DFMT `0b11`. -/
theorem test_decodeD_value : outcome (.decodeD [0x70A4#16, 0x3F9D#16]) .format4 =
    some (some (.value 0xA4709D3F#32), .format4) := by decide

/-- Source example S6. -/
theorem test_decodeD_one_word : outcome (.decodeD [0x1234#16]) .format2 =
    some (some (.error .invalidInput), .format2) := by decide

/-- R79's worked example. -/
theorem test_getfmt : outcome .getfmt .format4 = some (some (.fmt .format4), .format4) ∧
    (Response.fmt .format4).frame = [0x00#8, 0x03#8] := by decide

/-- R80's worked example. -/
theorem test_setfmt : outcome (.setfmt .format4) .format1 = some (some .ack, .format4) := by decide

/-! ### Steps -/

/-- R107, X5: `format_3` is not a name, so reset falls back to FORMAT_1. -/
theorem test_reset_lower_case :
    step { ready .format4 [.reset] with strap := lowerCase3 } =
      .next { ready .format1 [] with strap := lowerCase3 } := by rfl

/-- R109: a reset loads the strap again, here `FORMAT_3`. -/
theorem test_reset_named :
    step { ready .format1 [.reset] with strap := ⟨true, formatName .format3⟩ } =
      .next { ready .format3 [] with strap := ⟨true, formatName .format3⟩ } := by rfl

/-- X9: `0x15` is reserved. -/
theorem test_step_refuses_reserved :
    step (ready .format1 [.command 0 [0x15#8, 0#8, 0#8, 0#8, 0#8]]) = .refused (.invalidRequest .reservedDFormat) := by rfl

/-- A table word as the first command after reset: ENCODE.D of zero. -/
theorem test_table_word_runs : step (State.reset.withFetchWord 8 0x14) =
    .next { State.reset with answered := [⟨0, .encodeD 0#32, .pair ⟨0#16, 0#16⟩⟩] } := by rfl

/-- A table word of DECODE has LEN 0: it runs, and answers INVALID_INPUT. -/
theorem test_table_word_decode : decodeTableWord 8 0x22 = some (.decode .format3 []) := by decide

/-! ### Witnesses: the hypotheses of each statement, met together -/

theorem witness_ReservedEncodingsAreRefused :
    decodeCommandByte 0x27#8 = .error .reservedDFormat ∧
    (unreset .format1 [.command 3 [0x27#8]]).port = .command 3 [0x27#8] :: [] ∧
    decodeFrame [0x27#8] = .error .reservedDFormat := by decide

theorem witness_FrameLengthRule :
    decodeCommandByte 0x20#8 = .ok (.decode .format1) ∧ cmdOp 0x20#8 = 0b0010#4 ∧
    decodeFrame (0x20#8 :: 0#8 :: []) = .ok (.decode .format1 []) ∧
    decodeFrame (0x20#8 :: 2#8 :: [0#8, 0#8, 0#8, 1#8]) = .ok (.decode .format1 [0#16, 1#16]) := by decide

/-- LEN at its largest value. -/
theorem witness_FrameLengthRule_255 :
    decodeFrame (0x20#8 :: 255#8 :: List.replicate 510 0#8) = .ok (.decode .format1 (List.replicate 255 0#16)) := by
  decide +kernel

theorem witness_DecodeOfEncodeIsTheRequest : (Instr.decodeD (List.replicate 255 0xFFFF#16)).wf = true := by
  simp only [Instr.wf, lenFits, List.length_replicate]
  decide

theorem witness_EncodeOfDecodeIsTheFrame : decodeFrame [0x23#8, 0x00#8] = .ok (.decode .format4 []) := by decide

theorem witness_TableWordIsTheNextCommand : decodeTableWord 8 0x43 = some (.setfmt .format4) := by decide

/-- All three conditions of R69 are met by some pattern, alone and together, and missed together by 1.23. -/
theorem witness_FormatsCoincideExactly :
    enc 0xAABBAABB#32 .format1 = enc 0xAABBAABB#32 .format2 ∧ enc 0x7F7FFFFF#32 .format1 = enc 0x7F7FFFFF#32 .format3 ∧
    enc 0x11222211#32 .format1 = enc 0x11222211#32 .format4 ∧ enc 0x11111111#32 .format1 = enc 0x11111111#32 .format4 ∧
    enc 0x3F9D70A4#32 .format1 ≠ enc 0x3F9D70A4#32 .format4 := by decide

theorem witness_OnePermutationBothDirections :
    FloatFormat.format1 ≠ .format2 ∧ FloatFormat.format3 ≠ .format2 ∧ FloatFormat.format4 ≠ .format2 ∧
    FloatFormat.format1 ≠ .format3 ∧ FloatFormat.format1 ≠ .format4 ∧ FloatFormat.format3 ≠ .format4 := by decide

/-- Lengths 0, 1 and 3 are wrong; 2 is not; and 255 words still have a frame. -/
theorem witness_DecodeAnswersDecodedValue :
    ([] : List Word16).length ≠ 2 ∧ [0#16].length ≠ 2 ∧ [0#16, 1#16, 2#16].length ≠ 2 ∧
    [0xFFFF#16, 0x0001#16] = [0xFFFF#16, 0x0001#16] ∧ (List.replicate 255 0#16).length ≤ 255 := by
  rw [List.length_replicate]
  decide

theorem witness_DecodeDAnswersUnderDefault :
    ([] : List Word16).length ≠ 2 ∧ [0#16, 1#16, 2#16].length ≠ 2 ∧ (ready .format1 []).dfmt = .format1 := by decide

theorem lowerCase3_unrecognised (f : FloatFormat) : lowerCase3.sample ≠ .present (formatName f) := by
  cases f <;> decide

theorem witness_EncodeDAnswersUnderDefault : (ready .format1 []).dfmt = .format1 ∧
    ∀ f, lowerCase3.sample ≠ .present (formatName f) := ⟨rfl, lowerCase3_unrecognised⟩

theorem witness_GetfmtAnswersDefault : (ready .format4 []).dfmt = .format4 ∧
    ∀ f, CfgSignals.absent.sample ≠ .present (formatName f) := ⟨rfl, by intro f; cases f <;> decide⟩

theorem witness_SetfmtReplacesDefault :
    exec (.setfmt .format4) (ready .format1 []) =
      .next { ready .format4 [] with answered := [⟨0, .setfmt .format4, .ack⟩] } := by rfl

theorem witness_CommandsChangeOnlyTheirOwn :
    (∀ f, Instr.getfmt ≠ .setfmt f) ∧
    exec .getfmt (ready .format2 [.reset]) =
      .next { ready .format2 [.reset] with answered := [⟨0, .getfmt, .fmt .format2⟩] } :=
  ⟨nofun, rfl⟩

theorem witness_OnlyResetAndSetfmtWriteDefault :
    step (ready .format2 [.reset]) = .next (ready .format1 []) ∧ FloatFormat.format1 ≠ .format2 ∧
    step (ready .format2 [.command 0 [0x40#8]]) =
      .next { ready .format1 [] with answered := [⟨0, .setfmt .format1, .ack⟩] } := ⟨rfl, by decide, rfl⟩

theorem witness_InvalidInputLeavesNoTrace : wrongLength (.decode .format4 []) = true ∧
    exec (.decode .format4 []) (ready .format2 []) =
      .next { ready .format2 [] with answered := [⟨0, .decode .format4 [], .error .invalidInput⟩] } := ⟨by decide, rfl⟩

theorem witness_NextCommandAfterErrorIsNormal : wrongLength (.decodeD [0#16, 0#16, 0#16]) = true := by decide

theorem witness_ResponseFramesTellTheResponse :
    fitsRow (.decode .format1 []) (.error .invalidInput) = true ∧ fitsRow (.decodeD [0#16, 1#16]) (.value 1#32) = true := by
  decide

theorem witness_StatusIsOkOrInvalidInput :
    exec .getfmt (ready .format1 []) = .next { ready .format1 [] with answered := [⟨0, .getfmt, .fmt .format1⟩] } ∧
    lastResponse { ready .format1 [] with answered := [⟨0, .getfmt, .fmt .format1⟩] } = some (.fmt .format1) := ⟨rfl, rfl⟩

theorem witness_StepPerformsTheDecodedCommand :
    (ready .format1 [.command 7 [0x30#8], .reset]).phase = .ready ∧
    (ready .format1 [.command 7 [0x30#8], .reset]).port = .command 7 [0x30#8] :: [.reset] ∧
    decodeFrame [0x30#8] = .ok .getfmt := by decide

theorem witness_CommandBeforeFirstResetIsRefused :
    (unreset .format1 [.command 0 [0x30#8]]).phase = .beforeReset ∧
    (unreset .format1 [.command 0 [0x30#8]]).port = .command 0 [0x30#8] :: [] ∧ decodeFrame [0x30#8] = .ok .getfmt := by
  decide

theorem witness_NoDefaultBeforeTheFirstReset :
    step (unreset .format3 [.command 0 [0x30#8]]) = .refused .commandBeforeReset ∧
    step (unreset .format3 [.strap lowerCase3]) = .next { unreset .format3 [] with strap := lowerCase3 } ∧
    step (unreset .format3 [.reset]) = .next (ready .format1 []) := ⟨rfl, rfl, rfl⟩

theorem witness_OverlappingResetIsRefused :
    (ready .format1 [.commandDuringReset 0 [0x30#8]]).port = .commandDuringReset 0 [0x30#8] :: [] ∧
    (ready .format1 [.strapDuringReset lowerCase3]).port = .strapDuringReset lowerCase3 :: [] ∧
    lowerCase3.sample ≠ (ready .format1 [.strapDuringReset lowerCase3]).strap.sample := by decide

/-- `CFG_PRESENT` stays 0 and only an ignored line moves: reset is performed. -/
theorem witness_ResetIgnoresUnselectedStrapSignals :
    (CfgSignals.mk false [0x46#8]).sample = CfgSignals.absent.sample ∧
    step (unreset .format3 [.strapDuringReset ⟨false, [0x46#8]⟩]) =
      .next { ready .format1 [] with strap := ⟨false, [0x46#8]⟩ } := ⟨by decide, rfl⟩

theorem witness_NothingHappensWithoutInput : State.reset.port = [] := rfl

theorem witness_ResetLoadsTheResolvedStrap :
    (unreset .format4 [.reset, .command 0 [0x30#8]]).port = .reset :: [.command 0 [0x30#8]] := by decide

theorem witness_ResetDiscardsTheEarlierDefault : (ready .format4 [.reset]).port = .reset :: [] := by decide

theorem witness_ResetValueOfDefault :
    (CfgSignals.ofCfg (.present (formatName .format3))).sample = .present (formatName .format3) ∧
    ∀ f, lowerCase3.sample ≠ .present (formatName f) := ⟨by decide, lowerCase3_unrecognised⟩

theorem witness_ResolveDefaultMatchesExactly :
    (∀ f, [0x34#8] ≠ formatName f) ∧ (formatName .format2 ++ [0x20#8]).length ≠ 8 :=
  ⟨by intro f; cases f <;> decide, by decide⟩

/-- A string of nine bytes that begins with a name, cut at the smallest admissible length, is still unrecognised. -/
theorem witness_CutStringResolvesAlike : 9 ≤ 9 ∧
    resolveDefault (.present ((formatName .format4 ++ [0x34#8, 0x34#8]).take 9)) = .format1 := by decide

theorem witness_FallbackCannotBeDetected :
    (∀ f, lowerCase3.sample ≠ .present (formatName f)) ∧
    (CfgSignals.mk true (formatName .format1)).sample = .present (formatName .format1) :=
  ⟨lowerCase3_unrecognised, by decide⟩

theorem witness_StrapIsConsultedByResetOnly :
    (ready .format2 [.strap lowerCase3]).port = .strap lowerCase3 :: [] := by decide

/-- A state with a lawful history, a step from it, and an answer of a request that does not read DFMT. -/
theorem witness_EveryStepKeepsAnswersLawful :
    let s := { ready .format2 [.command 0 [0x30#8]] with answered := [⟨0, .setfmt .format2, .ack⟩] }
    answersLawful s ∧ readsDefault (.setfmt .format2) = false ∧
    step s = .next { ready .format2 [] with answered := [⟨0, .setfmt .format2, .ack⟩, ⟨0, .getfmt, .fmt .format2⟩] } :=
  ⟨by intro x hx
      simp only [List.mem_singleton] at hx
      exact ⟨.format1, by rw [hx]; rfl⟩, rfl, rfl⟩

/-- Host 1 is one of two hosts, and not one of one. -/
theorem witness_EveryStepKeepsHostsWithin :
    (ready .format2 [.command 1 [0x30#8]]).hostsWithin 2 = true ∧ (ready .format2 [.command 1 [0x30#8]]).hostsWithin 1 = false ∧
    step (ready .format2 [.command 1 [0x30#8]]) =
      .next { ready .format2 [] with issuer := 1, answered := [⟨1, .getfmt, .fmt .format2⟩] } := ⟨by decide, by decide, rfl⟩

theorem witness_StepsKeepReadinessAndAnswers :
    step (ready .format2 [.strap lowerCase3, .reset]) = .next { ready .format2 [.reset] with strap := lowerCase3 } ∧
    (ready .format2 [.strap lowerCase3, .reset]).phase = .ready := ⟨rfl, rfl⟩

/-- Also of EveryCommandIsAnsweredOnceInOrder: duties met before the first reset, over resets, strap changes and commands. -/
theorem witness_RunIsTheReference :
    dutiesMet .beforeReset CfgSignals.absent [.strap lowerCase3, .reset, .command 0 [0x41#8], .command 1 [0x24#8, 0x00#8],
      .strap ⟨false, []⟩, .strapDuringReset ⟨false, [0x46#8]⟩, .command 0 [0x30#8]] = true := by
  decide

theorem witness_ReadAfterWrite : ∀ r ∈ [(0, Instr.setfmt .format3), (1, Instr.decodeD [])], r.2.wf = true := by decide

theorem witness_EachHostsOrderIsKept :
    (0 : Nat) ≠ 1 ∧ decodeFrame [0x41#8] = .ok (.setfmt .format2) ∧ decodeFrame [0x30#8] = .ok .getfmt ∧
    Interleaving [Event.command 0 [0x41#8]] [Event.command 1 [0x30#8]] [Event.command 1 [0x30#8], Event.command 0 [0x41#8]] :=
  ⟨by decide, by decide, by decide, .fromSecond _ (.fromFirst _ .done)⟩

theorem witness_EachOfNHostsIsAnsweredInItsOrder :
    let requests := [(1, Instr.getfmt), (0, Instr.setfmt .format2), (1, Instr.encodeD 0#32)]
    (ready .format1 (commandEvents requests)).phase = .ready ∧
    (ready .format1 (commandEvents requests)).hostsWithin 2 = true ∧
    interleaves 2 #v[[.setfmt .format2], [.getfmt, .encodeD 0#32]] requests ∧ (∀ r ∈ requests, r.2.wf = true) ∧
    (ready .format1 (commandEvents requests)).port = commandEvents requests :=
  ⟨rfl, by decide, ⟨by decide, by decide⟩, by decide, rfl⟩

/-- The case `N_HOSTS` = 1. -/
theorem witness_EachOfNHostsIsAnsweredInItsOrder_one :
    (ready .format1 (commandEvents [(0, Instr.getfmt)])).hostsWithin 1 = true ∧
    interleaves 1 #v[[.getfmt]] [(0, Instr.getfmt)] := ⟨by decide, by decide, by decide⟩

theorem witness_RacingCommandSeesOldOrNewDefault :
    (ready .format1 []).phase = .ready ∧ readsDefault (.encodeD 0x3F9D70A4#32) = true ∧
    (Instr.encodeD 0x3F9D70A4#32).wf = true ∧
    Interleaving (commandEvents [(0, .setfmt .format2)]) (commandEvents [(1, .encodeD 0x3F9D70A4#32)])
      (commandEvents [(0, .setfmt .format2), (1, .encodeD 0x3F9D70A4#32)]) :=
  ⟨rfl, rfl, rfl, .fromFirst _ (.fromSecond _ .done)⟩

theorem witness_NoThirdFormat :
    (∀ e ∈ (ready .format3 [.command 0 [0x30#8]]).port, appliesReset e = false) ∧
    Host.Core.run Sys2Proof.core 1 (ready .format3 [.command 0 [0x30#8]]) =
      .next { ready .format3 [] with answered := [⟨0, .getfmt, .fmt .format3⟩] } := ⟨by decide, rfl⟩

end Sys2Proof.Tests
end

/-!
PROOFS. Facts about the frame codec: reading back what the encoder writes (30_encoding.md rules R42 to R47).
-/
namespace Sys2Proof

@[simp] theorem decodeCommandByte_commandByte (op : Opcode) : decodeCommandByte (commandByte op) = .ok op := by
  cases op with
  | encode f => cases f <;> rfl
  | encodeD => rfl
  | decode f => cases f <;> rfl
  | decodeD => rfl
  | getfmt => rfl
  | setfmt f => cases f <;> rfl

/-- A frame whose command byte is the encoder's is read by that command's operand reader. -/
theorem decodeFrame_commandByte_cons (op : Opcode) (operands : List Byte) :
    decodeFrame (commandByte op :: operands) = readOperands op operands := by
  simp [decodeFrame]

@[simp] theorem valueOfBytes_slices (v : Pattern32) :
    valueOfBytes (v.extractLsb' 24 8) (v.extractLsb' 16 8) (v.extractLsb' 8 8) (v.extractLsb' 0 8) = v := by
  rw [valueOfBytes, BitVec.extractLsb'_append_extractLsb'_eq_extractLsb' (show 24 = 16 + 8 from rfl),
    BitVec.extractLsb'_append_extractLsb'_eq_extractLsb' (show 16 = 8 + 8 from rfl),
    BitVec.extractLsb'_append_extractLsb'_eq_extractLsb' (show 8 = 0 + 8 from rfl)]
  exact BitVec.extractLsb'_eq_self

@[simp] theorem readValue_valueBytes (v : Pattern32) : readValue (valueBytes v) = .ok v := by
  simp [readValue, valueBytes]

/-- LEN counts up to 255 words; the data bytes are then exactly `2 · LEN` and read back as the words. -/
theorem readRegs_regsBytes {regs : List Word16} (h : lenFits regs = true) : readRegs (regsBytes regs) = .ok regs := by
  have hlen : regs.length ≤ 255 := of_decide_eq_true h
  simp [readRegs, regsBytes, Nat.mod_eq_of_lt (Nat.lt_succ_of_le hlen)]

/-- No bit of a well-formed request is lost in its frame. -/
theorem decodeFrame_encode {i : Instr} (h : i.wf = true) : decodeFrame (encode i) = .ok i := by
  cases i with
  | encode f v => simp [encode, decodeFrame_commandByte_cons, readOperands, Except.map]
  | encodeD v => simp [encode, decodeFrame_commandByte_cons, readOperands, Except.map]
  | decode f regs => simp [encode, decodeFrame_commandByte_cons, readOperands, readRegs_regsBytes h, Except.map]
  | decodeD regs => simp [encode, decodeFrame_commandByte_cons, readOperands, readRegs_regsBytes h, Except.map]
  | getfmt => rfl
  | setfmt f => simp [encode, decodeFrame_commandByte_cons, readOperands, readNothing, Except.map]

end Sys2Proof

/-!
PROOFS. What every step does to the port and to the record of answers, and the runs of a port of commands.
-/
namespace Sys2Proof.Machine

open Sys2Proof.Safety

/-- The length check only chooses which response is given. -/
theorem respondDecoded_eq_respond (s : State) (i : Instr) (regs : List Word16) (f : FloatFormat) :
    ∃ r, s.respondDecoded i regs f = s.respond i r := by
  rcases respondDecoded_cases s i regs f with ⟨a, b, _, h⟩ | ⟨_, h⟩ <;> exact ⟨_, h⟩

/-- Every command sets DFMT (to the value it had, but for SETFMT), answers once, and does nothing else. -/
theorem exec_eq_writeDfmt_respond (i : Instr) (s : State) :
    ∃ d r, exec i s = .next ((s.writeDfmt d).respond i r) := by
  cases i with
  | encode f v => exact ⟨s.dfmt, _, rfl⟩
  | encodeD v => exact ⟨s.dfmt, _, rfl⟩
  | decode f regs =>
    obtain ⟨r, hr⟩ := respondDecoded_eq_respond s (.decode f regs) regs f
    exact ⟨s.dfmt, r, congrArg Host.Outcome.next hr⟩
  | decodeD regs =>
    obtain ⟨r, hr⟩ := respondDecoded_eq_respond s (.decodeD regs) regs s.dfmt
    exact ⟨s.dfmt, r, congrArg Host.Outcome.next hr⟩
  | getfmt => exact ⟨s.dfmt, _, rfl⟩
  | setfmt f => exact ⟨f, _, rfl⟩

/-- A well-formed command at the port of a block that has been reset is performed and answered to its host. -/
theorem step_command {s : State} {host : Nat} {frame : List Byte} {rest : List Event} {i : Instr}
    (hport : s.port = .command host frame :: rest) (hready : s.phase = .ready) (hdec : decodeFrame frame = .ok i) :
    ∃ d r, step s = .next (((s.accept host rest).writeDfmt d).respond i r) := by
  have hstep : step s = exec i (s.accept host rest) := by
    simp [step, State.nextInput, hport, State.admitCommand, hdec, hready]
  rw [hstep]
  exact exec_eq_writeDfmt_respond i (s.accept host rest)

/-- A step takes one input from the port, and adds to the record nothing, or one answer to the host whose command it took. -/
theorem step_port_and_record {s t : State} (h : step s = .next t) :
    t.port = s.port.tail ∧
    (t.answered = s.answered ∨
      ∃ host frame i r, .command host frame ∈ s.port ∧ t.answered = s.answered ++ [⟨host, i, r⟩]) := by
  rcases step_next_cases h with ⟨hp, rfl⟩ | ⟨rest, hp, rfl⟩ | ⟨sig, rest, hp, _, rfl⟩ | ⟨sig, rest, hp, rfl⟩ |
    ⟨host, frame, rest, i, hp, _, _, hexec⟩
  · simp [hp]
  · simp [hp]
  · simp [hp]
  · simp [hp]
  · obtain ⟨d, r, hr⟩ := exec_eq_writeDfmt_respond i (s.accept host rest)
    obtain rfl := Host.Outcome.next.inj (hr.symm.trans hexec)
    exact ⟨by simp [hp], .inr ⟨host, frame, i, r, by simp [hp], by simp⟩⟩

/-- The invariant of R101: whatever the input, the hosts stay those of the block. -/
theorem step_keeps_hostsWithin {nHosts : Nat} {s t : State} (hs : s.hostsWithin nHosts = true)
    (h : step s = .next t) : t.hostsWithin nHosts = true := by
  obtain ⟨hevents, hanswers⟩ := hostsWithin_iff.mp hs
  obtain ⟨hport, hrecord⟩ := step_port_and_record h
  refine hostsWithin_iff.mpr ⟨fun e he => hevents e (List.mem_of_mem_tail (hport ▸ he)), ?_⟩
  rcases hrecord with hsame | ⟨host, frame, i, r, hcommand, hnew⟩
  · exact hsame ▸ hanswers
  · have hhost : host < nHosts := of_decide_eq_true (hevents _ hcommand)
    rw [hnew]
    intro x hx
    rcases List.mem_append.mp hx with hold | hlast
    · exact hanswers x hold
    · rw [List.mem_singleton.mp hlast]
      exact hhost

/-- With its own hosts only the machine of `nHosts` hosts runs as the block does, and ends with its own hosts only. -/
theorem runFor_of_run {nHosts k : Nat} {s t : State} (hs : s.hostsWithin nHosts = true)
    (h : Host.Core.run Sys2Proof.core k s = .next t) :
    Host.Core.run (coreFor nHosts) k s = .next t ∧ t.hostsWithin nHosts = true := by
  induction k generalizing s with
  | zero =>
    obtain rfl := Host.Outcome.next.inj ((run_zero s).symm.trans h)
    exact ⟨rfl, hs⟩
  | succ k ih =>
    obtain ⟨u, hstep, hrun⟩ := run_succ_next h
    have hfor : stepFor nHosts s = .next u := (stepFor_of_within hs).trans hstep
    rw [runFor_succ_of_next k hfor]
    exact ih (step_keeps_hostsWithin hs hstep) hrun

@[simp] theorem commandEvents_cons (host : Nat) (i : Instr) (requests : List (Nat × Instr)) :
    commandEvents ((host, i) :: requests) = .command host (encode i) :: commandEvents requests := rfl

/-- R33, R115: a block that has been reset performs all commands of its port and answers each once, in acceptance order. -/
theorem runPort_commandEvents {requests : List (Nat × Instr)} {s : State} (hready : s.phase = .ready)
    (hwf : ∀ r ∈ requests, r.2.wf = true) (hport : s.port = commandEvents requests) :
    ∃ t new, runPort s = .next t ∧ t.answered = s.answered ++ new ∧
      new.map (fun x => (x.host, x.request)) = requests := by
  induction requests generalizing s with
  | nil => exact ⟨s, [], by rw [runPort, hport]; exact run_zero s, by simp, rfl⟩
  | cons request requests ih =>
    obtain ⟨host, i⟩ := request
    obtain ⟨hi, hrest⟩ := List.forall_mem_cons.mp hwf
    rw [commandEvents_cons] at hport
    obtain ⟨d, r, hstep⟩ := step_command hport hready (decodeFrame_encode hi)
    obtain ⟨t, new, hrun, hanswered, hnew⟩ :=
      ih (s := ((s.accept host (commandEvents requests)).writeDfmt d).respond i r) (by simpa) hrest (by simp)
    refine ⟨t, ⟨host, i, r⟩ :: new, ?_, by simp [hanswered], by simp [hnew]⟩
    rw [runPort, hport, List.length_cons, run_succ_of_next _ hstep]
    simpa [runPort] using hrun

end Sys2Proof.Machine

/-!
PROOFS. One host's share of the answers, and the statements about `N_HOSTS` (00_scope.md rule R5).
-/
namespace Sys2Proof.Safety

open Sys2Proof.Machine

/-- The requests answered to a host are that host's program among all requests answered. -/
theorem answered_to_host (host : Nat) (new : List Exchange) :
    (new.filter fun x => x.host == host).map Exchange.request =
      programOf host (new.map fun x => (x.host, x.request)) := by
  simp [programOf, List.filter_map, Function.comp_def]

/-- Where every request is of one host, its program is all of them. -/
theorem programOf_eq_map_snd {host : Nat} {requests : List (Nat × Instr)} (h : ∀ r ∈ requests, r.1 = host) :
    programOf host requests = requests.map Prod.snd := by
  rw [programOf, List.filter_eq_self.mpr fun r hr => by simpa using h r hr]

/-- Settles O58. -/
theorem hostsWithinAfterReset : Obligations.HostsWithinAfterReset := by
  have within_afterReset (nHosts : Nat) (sig : CfgSignals) : (State.afterReset sig).hostsWithin nHosts = true :=
    hostsWithin_iff.mpr ⟨by simp, by simp⟩
  exact ⟨within_afterReset, within_afterReset Config.nHostsDefault CfgSignals.absent⟩

/-- Settles O59, from what a step does to the port and the record. -/
theorem everyStepKeepsHostsWithin : Obligations.EveryStepKeepsHostsWithin := by
  intro nHosts s t hs hstep
  exact ⟨step_keeps_hostsWithin hs hstep, (stepFor_of_within hs).trans hstep⟩

/-- Settles O60: the block's run of the port, taken over to the machine of `nHosts` hosts and read host by host. -/
theorem eachOfNHostsIsAnsweredInItsOrder : Obligations.EachOfNHostsIsAnsweredInItsOrder := by
  intro nHosts s programs requests hready hs ⟨hhosts, hprograms⟩ hwf hport
  obtain ⟨t, new, hrun, hanswered, hnew⟩ := runPort_commandEvents hready hwf hport
  obtain ⟨hrunFor, _⟩ := runFor_of_run hs hrun
  refine ⟨t, new, hrunFor, hanswered, fun host => ?_, fun hone host => ?_⟩
  · rw [answered_to_host, hnew, hprograms host]
  · have only_host : ∀ r ∈ requests, r.1 = host.val := fun r hr => by
      have := hhosts r hr
      omega
    calc new.map Exchange.request
        = (new.map fun x => (x.host, x.request)).map Prod.snd := by simp [Function.comp_def]
      _ = programOf host.val requests := by rw [hnew, programOf_eq_map_snd only_host]
      _ = programs[host] := hprograms host

end Sys2Proof.Safety

/-!
PROOFS. What every command answers and sets, in closed form (40_codec.md rules R61, R62, R71, R75).
-/
namespace Sys2Proof.Safety

open Sys2Proof.Machine

/-- A slice inside a slice is a slice of the whole. -/
theorem slice_of_slice {w start len start' len' : Nat} (x : BitVec w) (h : start + len ≤ len') :
    (x.extractLsb' start' len').extractLsb' start len = x.extractLsb' (start' + start) len := by
  apply BitVec.eq_of_getLsbD_eq
  intro i hi
  have hi' : start + i < len' := by omega
  simp [hi, hi', Nat.add_assoc]

/-- R62 writes four bytes in a row; `Dec` joins two words of two bytes each. -/
theorem join_two_words (a b c d : Byte) : (a ++ b) ++ (c ++ d) = a ++ b ++ c ++ d := by
  rw [BitVec.append_assoc (x₁ := a ++ b), BitVec.cast_eq]

theorem bswap16_highHalf (v : Pattern32) :
    bswap16 (highHalf v) = v.extractLsb' 16 8 ++ v.extractLsb' 24 8 := by
  simp [bswap16, lowByte, highByte, highHalf, slice_of_slice]

theorem bswap16_lowHalf (v : Pattern32) : bswap16 (lowHalf v) = v.extractLsb' 0 8 ++ v.extractLsb' 8 8 := by
  simp [bswap16, lowByte, highByte, lowHalf, slice_of_slice]

/-- R61: the word and byte stages of `Enc` together are its closed form. -/
theorem enc_eq_encTable (v : Pattern32) (f : FloatFormat) : enc v f = encTable v f := by
  cases f with
  | format1 => rfl
  | format2 => rfl
  | format3 => exact congrArg₂ RegisterPair.mk (bswap16_lowHalf v) (bswap16_highHalf v)
  | format4 => exact congrArg₂ RegisterPair.mk (bswap16_highHalf v) (bswap16_lowHalf v)

/-- R62: the byte and word stages of `Dec` together are its closed form. -/
theorem dec_eq_decTable (r0 r1 : Word16) (f : FloatFormat) : dec ⟨r0, r1⟩ f = decTable r0 r1 f := by
  cases f with
  | format1 => rfl
  | format2 => rfl
  | format3 => exact join_two_words (lowByte r1) (highByte r1) (lowByte r0) (highByte r0)
  | format4 => exact join_two_words (lowByte r0) (highByte r0) (lowByte r1) (highByte r1)

/-- R65, R66: a DECODE under a format answers as the explicit form does, under any default `d`. -/
theorem respondDecoded_eq (s : State) (i : Instr) (regs : List Word16) (d f : FloatFormat) :
    s.respondDecoded i regs f = s.respond i (answerUnder d (.decode f regs)) := by
  match regs with
  | [] => rfl
  | [_] => rfl
  | [a, b] => rw [respondDecoded_two, dec_eq_decTable, answerUnder]
  | _ :: _ :: _ :: _ => rfl

/-- R70: DECODE answers from its operands alone. -/
theorem answerUnder_decode (d d' f : FloatFormat) (regs : List Word16) :
    answerUnder d (.decode f regs) = answerUnder d' (.decode f regs) := by
  match regs with
  | [] => rfl
  | [_] => rfl
  | [_, _] => rfl
  | _ :: _ :: _ :: _ => rfl

/-- R66: DECODE.D answers as DECODE under the default. -/
theorem answerUnder_decodeD (d : FloatFormat) (regs : List Word16) :
    answerUnder d (.decodeD regs) = answerUnder d (.decode d regs) := by
  match regs with
  | [] => rfl
  | [_] => rfl
  | [_, _] => rfl
  | _ :: _ :: _ :: _ => rfl

/-- R71, R75: every command sets DFMT as `defaultAfter` says, answers as `answerUnder` says, and does nothing else. -/
theorem exec_eq (i : Instr) (s : State) :
    exec i s = .next ((s.writeDfmt (defaultAfter s.dfmt i)).respond i (answerUnder s.dfmt i)) := by
  cases i with
  | encode f v => rw [answerUnder, ← enc_eq_encTable]; rfl
  | encodeD v => rw [answerUnder, ← enc_eq_encTable]; rfl
  | decode f regs => exact congrArg Host.Outcome.next (respondDecoded_eq s (.decode f regs) regs s.dfmt f)
  | decodeD regs =>
    rw [answerUnder_decodeD]
    exact congrArg Host.Outcome.next (respondDecoded_eq s (.decodeD regs) regs s.dfmt s.dfmt)
  | getfmt => rfl
  | setfmt f => rfl

/-- What a command leaves, read off `exec_eq`. -/
theorem exec_next {i : Instr} {s t : State} (h : exec i s = .next t) :
    t = (s.writeDfmt (defaultAfter s.dfmt i)).respond i (answerUnder s.dfmt i) :=
  (Host.Outcome.next.inj ((exec_eq i s).symm.trans h)).symm

/-- R16, R71: DFMT changes by SETFMT only. -/
theorem defaultAfter_cases (d : FloatFormat) (i : Instr) :
    defaultAfter d i = d ∨ ∃ f, i = .setfmt f ∧ defaultAfter d i = f := by
  cases i with
  | setfmt f => exact .inr ⟨f, rfl, rfl⟩
  | encode | encodeD | decode | decodeD | getfmt => exact .inl rfl

/-- R70: what does not read DFMT answers the same under any two defaults. -/
theorem answerUnder_of_not_readsDefault {i : Instr} (h : readsDefault i = false) (d d' : FloatFormat) :
    answerUnder d i = answerUnder d' i := by
  cases i with
  | encode | setfmt => rfl
  | decode f regs => exact answerUnder_decode d d' f regs
  | encodeD | decodeD | getfmt => cases h

end Sys2Proof.Safety

/-!
PROOFS. What every step does to the record, the phase and DFMT (10_state.md rules R15, R16, R24).
-/
namespace Sys2Proof.Safety

open Sys2Proof.Machine

/-- R33, R75: a step adds at most one answer to the record, its request's answer under the default the step began with. -/
theorem step_new_answers {s t : State} (h : step s = .next t) :
    ∃ new, t.answered = s.answered ++ new ∧ new.length ≤ 1 ∧
      ∀ x ∈ new, x.response = answerUnder s.dfmt x.request := by
  rcases step_next_cases h with ⟨_, rfl⟩ | ⟨rest, _, rfl⟩ | ⟨sig, rest, _, _, rfl⟩ | ⟨sig, rest, _, rfl⟩ |
    ⟨host, frame, rest, i, _, _, _, hexec⟩
  · exact ⟨[], by simp⟩
  · exact ⟨[], by simp⟩
  · exact ⟨[], by simp⟩
  · exact ⟨[], by simp⟩
  · rw [exec_next hexec]
    exact ⟨[⟨host, i, answerUnder s.dfmt i⟩], by simp⟩

/-- R24, R109: reset makes the block ready, and no other input changes the phase. -/
theorem step_phase {s t : State} (h : step s = .next t) : t.phase = s.phase ∨ t.phase = .ready := by
  rcases step_next_cases h with ⟨_, rfl⟩ | ⟨rest, _, rfl⟩ | ⟨sig, rest, _, _, rfl⟩ | ⟨sig, rest, _, rfl⟩ |
    ⟨host, frame, rest, i, _, _, _, hexec⟩
  · exact .inl rfl
  · exact .inr rfl
  · exact .inr rfl
  · exact .inl rfl
  · exact .inl (by simp [exec_next hexec])

/-- R16: all that a step can do to DFMT: keep it, load the resolved strap by a reset, or load the operand of a SETFMT. -/
theorem step_dfmt_cases {s t : State} (h : step s = .next t) :
    t.dfmt = s.dfmt ∨
    (∃ rest, s.port = .reset :: rest ∧ t.dfmt = resolveDefault s.strap.sample) ∨
    (∃ sig rest, s.port = .strapDuringReset sig :: rest ∧ sig.sample = s.strap.sample ∧
      t.dfmt = resolveDefault s.strap.sample) ∨
    (∃ host frame rest f, s.port = .command host frame :: rest ∧ decodeFrame frame = .ok (.setfmt f) ∧ t.dfmt = f) := by
  rcases step_next_cases h with ⟨_, rfl⟩ | ⟨rest, hport, rfl⟩ | ⟨sig, rest, hport, hsample, rfl⟩ | ⟨sig, rest, _, rfl⟩ |
    ⟨host, frame, rest, i, hport, _, hdecode, hexec⟩
  · exact .inl rfl
  · exact .inr (.inl ⟨rest, hport, rfl⟩)
  · exact .inr (.inr (.inl ⟨sig, rest, hport, hsample, by simp [hsample]⟩))
  · exact .inl rfl
  · have hdfmt : t.dfmt = defaultAfter s.dfmt i := by simp [exec_next hexec]
    rcases defaultAfter_cases s.dfmt i with hsame | ⟨f, rfl, hset⟩
    · exact .inl (hdfmt.trans hsame)
    · exact .inr (.inr (.inr ⟨host, frame, rest, f, hport, hdecode, hdfmt.trans hset⟩))

/-- R24: before the first reset the port refuses every command, on a ground that the frame alone decides. -/
theorem step_command_beforeReset (frame : List Byte) :
    ∃ r, (∀ i, decodeFrame frame = .ok i → r = .commandBeforeReset) ∧
      ∀ (s : State) (host : Nat) (rest : List Event), s.phase = .beforeReset → s.port = .command host frame :: rest →
        step s = .refused r := by
  cases hdecode : decodeFrame frame with
  | error e =>
    refine ⟨.invalidRequest e, by simp, fun s host rest hphase hport => ?_⟩
    simp [step, State.nextInput, hport, State.admitCommand, hdecode]
  | ok i =>
    refine ⟨.commandBeforeReset, by simp, fun s host rest hphase hport => ?_⟩
    simp [step, State.nextInput, hport, State.admitCommand, hdecode, hphase]

/-! ### The step of each input that is no command -/

theorem step_idle {s : State} (hport : s.port = []) : step s = .next s := by
  simp [step, State.nextInput, hport]

theorem step_reset {s : State} {rest : List Event} (hport : s.port = .reset :: rest) :
    step s = .next (s.consume rest).applyReset := by
  simp [step, State.nextInput, hport]

theorem step_strap {s : State} {sig : CfgSignals} {rest : List Event} (hport : s.port = .strap sig :: rest) :
    step s = .next ((s.consume rest).driveStrap sig) := by
  simp [step, State.nextInput, hport]

theorem step_commandDuringReset {s : State} {host : Nat} {frame : List Byte} {rest : List Event}
    (hport : s.port = .commandDuringReset host frame :: rest) : step s = .refused .commandDuringReset := by
  simp [step, State.nextInput, hport]

theorem step_strapDuringReset_same {s : State} {sig : CfgSignals} {rest : List Event}
    (hport : s.port = .strapDuringReset sig :: rest) (hsample : sig.sample = s.strap.sample) :
    step s = .next ((s.consume rest).driveStrap sig).applyReset := by
  simp [step, State.nextInput, hport, State.resetWhileStrapMoves, hsample]

theorem step_strapDuringReset_moved {s : State} {sig : CfgSignals} {rest : List Event}
    (hport : s.port = .strapDuringReset sig :: rest) (hsample : sig.sample ≠ s.strap.sample) :
    step s = .refused .strapDuringReset := by
  simp [step, State.nextInput, hport, State.resetWhileStrapMoves, hsample]

@[simp] theorem writeDfmt_writeDfmt (s : State) (d d' : FloatFormat) :
    (s.writeDfmt d).writeDfmt d' = s.writeDfmt d' := rfl

/-- R24 (log 9): before the first reset every value of the field `dfmt` leads to one refusal, or to states that differ in the
field alone, or, once reset is applied, to one state. -/
theorem step_writeDfmt_beforeReset {s : State} (hphase : s.phase = .beforeReset) :
    (∃ r, ∀ d, step (s.writeDfmt d) = .refused r) ∨
    (∃ t : State, t.phase = .beforeReset ∧ ∀ d, step (s.writeDfmt d) = .next (t.writeDfmt d)) ∨
    (∃ t : State, t.phase = .ready ∧ ∀ d, step (s.writeDfmt d) = .next t) := by
  match hport : s.port with
  | [] => exact .inr (.inl ⟨s, hphase, fun _ => step_idle hport⟩)
  | .command host frame :: rest =>
    obtain ⟨r, _, hrefused⟩ := step_command_beforeReset frame
    exact .inl ⟨r, fun d => hrefused (s.writeDfmt d) host rest hphase hport⟩
  | .reset :: rest => exact .inr (.inr ⟨(s.consume rest).applyReset, rfl, fun _ => step_reset hport⟩)
  | .strap sig :: rest => exact .inr (.inl ⟨(s.consume rest).driveStrap sig, hphase, fun _ => step_strap hport⟩)
  | .commandDuringReset _ _ :: _ => exact .inl ⟨.commandDuringReset, fun _ => step_commandDuringReset hport⟩
  | .strapDuringReset sig :: rest =>
    by_cases hsample : sig.sample = s.strap.sample
    · exact .inr (.inr ⟨((s.consume rest).driveStrap sig).applyReset, rfl,
        fun _ => step_strapDuringReset_same hport hsample⟩)
    · exact .inl ⟨.strapDuringReset, fun _ => step_strapDuringReset_moved hport hsample⟩

/-! ### The SETFMT operands among the inputs -/

theorem issued_cons (e : Event) (evs : List Event) : issued (e :: evs) = issued [e] ++ issued evs := by
  cases e with
  | command host frame => cases hdecode : decodeFrame frame <;> simp [issued, hdecode]
  | reset | strap | commandDuringReset | strapDuringReset => rfl

theorem setfmtOperands_cons (e : Event) (evs : List Event) :
    setfmtOperands (e :: evs) = setfmtOperands [e] ++ setfmtOperands evs := by
  rw [setfmtOperands, issued_cons, List.filterMap_append]
  rfl

theorem setfmtOperands_tail_subset (evs : List Event) : setfmtOperands evs.tail ⊆ setfmtOperands evs := by
  cases evs with
  | nil => exact List.Subset.refl _
  | cons e evs =>
    rw [setfmtOperands_cons]
    exact List.subset_append_right _ _

theorem mem_setfmtOperands_cons {frame : List Byte} {f : FloatFormat} (h : decodeFrame frame = .ok (.setfmt f))
    (host : Nat) (rest : List Event) : f ∈ setfmtOperands (.command host frame :: rest) := by
  simp [setfmtOperands, issued, h]

/-- The formats a state and its inputs can bring into force without a reset: DFMT, and the operands of the SETFMTs to come. -/
def formatsInReach (s : State) : List FloatFormat := s.dfmt :: setfmtOperands s.port

/-- R15, R16: no step without a reset brings a further format into reach. -/
theorem step_formatsInReach_subset {s t : State} (hnoReset : ∀ e ∈ s.port, appliesReset e = false)
    (h : step s = .next t) : formatsInReach t ⊆ formatsInReach s := by
  have hport : setfmtOperands t.port ⊆ setfmtOperands s.port := by
    rw [(step_port_and_record h).1]
    exact setfmtOperands_tail_subset s.port
  have hdfmt : t.dfmt ∈ formatsInReach s := by
    rcases step_dfmt_cases h with hsame | ⟨rest, hreset, _⟩ | ⟨sig, rest, hreset, _, _⟩ |
      ⟨host, frame, rest, f, hcommand, hdecode, hset⟩
    · exact List.mem_cons.mpr (.inl hsame)
    · simp [hreset, appliesReset] at hnoReset
    · simp [hreset, appliesReset] at hnoReset
    · rw [formatsInReach, hcommand, hset]
      exact List.mem_cons_of_mem _ (mem_setfmtOperands_cons hdecode host rest)
  exact List.cons_subset.mpr ⟨hdfmt, List.subset_cons_of_subset _ hport⟩

/-- R34 (a): a run without a reset adds only answers under the formats in reach of the state it began in. -/
theorem run_new_answers {k : Nat} {s t : State} (hnoReset : ∀ e ∈ s.port, appliesReset e = false)
    (h : Host.Core.run Sys2Proof.core k s = .next t) :
    ∃ new, t.answered = s.answered ++ new ∧
      ∀ x ∈ new, ∃ d ∈ formatsInReach s, x.response = answerUnder d x.request := by
  induction k generalizing s with
  | zero =>
    obtain rfl := Host.Outcome.next.inj ((run_zero s).symm.trans h)
    exact ⟨[], by simp⟩
  | succ k ih =>
    obtain ⟨u, hstep, hrun⟩ := run_succ_next h
    have hnoResetTail : ∀ e ∈ u.port, appliesReset e = false := fun e he =>
      hnoReset e (List.mem_of_mem_tail ((step_port_and_record hstep).1 ▸ he))
    obtain ⟨first, hfirst, _, hanswers⟩ := step_new_answers hstep
    obtain ⟨later, hlater, hanswersLater⟩ := ih hnoResetTail hrun
    refine ⟨first ++ later, by rw [hlater, hfirst, List.append_assoc], fun x hx => ?_⟩
    rcases List.mem_append.mp hx with hx | hx
    · exact ⟨s.dfmt, List.mem_cons_self, hanswers x hx⟩
    · obtain ⟨d, hd, hresponse⟩ := hanswersLater x hx
      exact ⟨d, step_formatsInReach_subset hnoReset hstep hd, hresponse⟩

end Sys2Proof.Safety

/-!
PROOFS. `ResolveDefault` on names and on everything else (41_default_format.md rule R81), and the statements of 10_state.md.
-/
namespace Sys2Proof.Safety

open Sys2Proof.Machine

/-- R81, R82: a configuration that is a name resolves to the format of that name. -/
theorem resolveDefault_formatName (f : FloatFormat) : resolveDefault (.present (formatName f)) = f := by
  cases f <;> rfl

/-- R81, R83: a configuration that is no name resolves to the fallback. -/
theorem resolveDefault_of_no_name {c : Cfg} (h : ∀ f, c ≠ .present (formatName f)) : resolveDefault c = .format1 := by
  cases c with
  | absent => rfl
  | present bytes =>
    have hname : ∀ f, bytes ≠ formatName f := fun f hf => h f (congrArg Cfg.present hf)
    simp [resolveDefault, hname]

/-- Settles O48: a step adds only answers under the default it began with; and what does not read DFMT has one answer. -/
theorem everyStepKeepsAnswersLawful : Obligations.EveryStepKeepsAnswersLawful := by
  refine ⟨fun s t hlawful hstep x hx => ?_, fun s hlawful x hx hreads d => ?_⟩
  · obtain ⟨new, hanswered, _, hnew⟩ := step_new_answers hstep
    rcases List.mem_append.mp (hanswered ▸ hx) with hold | hlast
    · exact hlawful x hold
    · exact ⟨s.dfmt, hnew x hlast⟩
  · obtain ⟨d', hresponse⟩ := hlawful x hx
    exact hresponse.trans (answerUnder_of_not_readsDefault hreads d' d)

/-- Settles O55, by induction on the length of the run (`run_new_answers`). -/
theorem noThirdFormat : Obligations.NoThirdFormat := by
  intro k s t hnoReset hrun
  obtain ⟨new, hanswered, hnew⟩ := run_new_answers hnoReset hrun
  refine ⟨new, hanswered, fun x hx => ?_⟩
  obtain ⟨d, hd, hresponse⟩ := hnew x hx
  exact ⟨d, List.mem_cons.mp hd, hresponse⟩

/-- Settles O24, from all that a step can do to DFMT. -/
theorem onlyResetAndSetfmtWriteDefault : Obligations.OnlyResetAndSetfmtWriteDefault := fun _ _ hstep hchanged =>
  (step_dfmt_cases hstep).resolve_left hchanged

/-- Settles O36: the state itself is the one with its own value of the field. -/
theorem noDefaultBeforeTheFirstReset : Obligations.NoDefaultBeforeTheFirstReset := by
  intro s d hphase
  change (∀ r, step (s.writeDfmt s.dfmt) = .refused r ↔ step (s.writeDfmt d) = .refused r) ∧
    (∀ t, step (s.writeDfmt s.dfmt) = .next t →
      step (s.writeDfmt d) = .next (if t.phase = .beforeReset then t.writeDfmt d else t))
  rcases step_writeDfmt_beforeReset hphase with ⟨r, hany⟩ | ⟨u, hu, hany⟩ | ⟨u, hu, hany⟩
  · simp [hany]
  · simp [hany, hu]
  · simp [hany, hu]

/-- Settles O49, from what a step does to the record, the port and the phase. -/
theorem stepsKeepReadinessAndAnswers : Obligations.StepsKeepReadinessAndAnswers := by
  intro s t hstep
  obtain ⟨new, hanswered, hlength, _⟩ := step_new_answers hstep
  obtain ⟨hport, _⟩ := step_port_and_record hstep
  refine ⟨fun hready => ?_, ⟨new, hanswered, hlength⟩, hport⟩
  rcases step_phase hstep with hsame | hreset
  · exact hsame.trans hready
  · exact hreset

/-- Settles O35: the refusal is the frame's. -/
theorem commandBeforeFirstResetIsRefused : Obligations.CommandBeforeFirstResetIsRefused := by
  intro s host frame rest hphase hport
  obtain ⟨r, hreason, hrefused⟩ := step_command_beforeReset frame
  exact ⟨r, hrefused s host rest hphase hport, hreason⟩

/-- Settles O41, from what `ResolveDefault` makes of a name and of anything else. -/
theorem resetValueOfDefault : Obligations.ResetValueOfDefault := by
  intro sig
  refine ⟨State.afterReset_dfmt sig, fun f hname => ?_, fun hnone => ?_⟩
  · rw [State.afterReset_dfmt, hname, resolveDefault_formatName]
  · rw [State.afterReset_dfmt, resolveDefault_of_no_name hnone]

/-- Settles O42: every field of the constant is a literal. -/
theorem resetConstant : Obligations.ResetConstant := ⟨rfl, rfl, rfl, rfl, rfl, rfl⟩

end Sys2Proof.Safety

/-!
PROOFS. The run of any port that meets the hosts' duties: its answers and its default (20_memory.md rule R33, 40_codec.md
rule R75).
-/
namespace Sys2Proof.Safety

open Sys2Proof.Machine

/-- R33: the block performs the request that the next frame spells. -/
theorem step_command_eq_exec {s : State} {host : Nat} {frame : List Byte} {rest : List Event} {i : Instr}
    (hready : s.phase = .ready) (hport : s.port = .command host frame :: rest) (hdecode : decodeFrame frame = .ok i) :
    step s = exec i (s.accept host rest) := by
  simp [step, State.nextInput, hport, State.admitCommand, hdecode, hready]

/-- Settles O34: the accepted state is the one with the port and the issuer replaced. -/
theorem stepPerformsTheDecodedCommand : Obligations.StepPerformsTheDecodedCommand :=
  fun _ _ _ _ _ => step_command_eq_exec

/-- R33, R75: what the step of a command leaves, in closed form. -/
theorem step_command_closed {s : State} {host : Nat} {frame : List Byte} {rest : List Event} {i : Instr}
    (hready : s.phase = .ready) (hport : s.port = .command host frame :: rest) (hdecode : decodeFrame frame = .ok i) :
    step s = .next
      (((s.accept host rest).writeDfmt (defaultAfter s.dfmt i)).respond i (answerUnder s.dfmt i)) := by
  rw [step_command_eq_exec hready hport hdecode, exec_eq, State.accept_dfmt]

theorem runPort_nil {s : State} (hport : s.port = []) : runPort s = .next s := by
  rw [runPort, hport]
  exact run_zero s

/-- The run of a port is the step of its first input and then the run of the rest. -/
theorem runPort_of_step {s t : State} (hport : s.port ≠ []) (hstep : step s = .next t) : runPort s = runPort t := by
  have hlength : s.port.length = t.port.length + 1 := by
    rw [(step_port_and_record hstep).1, List.length_tail, Nat.sub_add_cancel (List.length_pos_of_ne_nil hport)]
  rw [runPort, runPort, hlength, run_succ_of_next _ hstep]

theorem isOk_iff_exists_ok {ε α : Type} {x : Except ε α} : x.isOk = true ↔ ∃ a, x = .ok a := by
  cases x with
  | error e => simp [Except.isOk, Except.toBool]
  | ok a => simp [Except.isOk, Except.toBool]

/-- R24, R118: a command is owed a block that has been reset and a frame that spells a request. -/
theorem dutiesMet_command {p : Phase} {sig : CfgSignals} {host : Nat} {frame : List Byte} {rest : List Event} :
    dutiesMet p sig (.command host frame :: rest) = true ↔
      p = .ready ∧ (∃ i, decodeFrame frame = .ok i) ∧ dutiesMet p sig rest = true := by
  simp [dutiesMet, isOk_iff_exists_ok, and_assoc]

/-- R110 (1): the strap may move through reset if what it presents stays the same. -/
theorem dutiesMet_strapDuringReset {p : Phase} {sig sig' : CfgSignals} {rest : List Event} :
    dutiesMet p sig (.strapDuringReset sig' :: rest) = true ↔
      sig'.sample = sig.sample ∧ dutiesMet .ready sig' rest = true := by
  simp [dutiesMet]

/-- The machine runs all its inputs, to the answers and the default that the closed forms give them. -/
def RunsToReference (s : State) : Prop :=
  ∃ t, runPort s = .next t ∧ t.answered = s.answered ++ answersFrom s.dfmt s.strap s.port ∧
    t.dfmt = defaultAfterAll s.dfmt s.strap s.port ∧ t.port = []

/-- The commuting square of one step: where the first input adds the answers the reference has for it, and leaves the default
and the strap from which the reference goes on, a run to the reference from there is one from here. -/
theorem RunsToReference.of_step {s t : State} (new : List Exchange) (hport : s.port ≠ []) (hstep : step s = .next t)
    (hrecord : t.answered = s.answered ++ new)
    (hanswers : answersFrom s.dfmt s.strap s.port = new ++ answersFrom t.dfmt t.strap t.port)
    (hdefault : defaultAfterAll s.dfmt s.strap s.port = defaultAfterAll t.dfmt t.strap t.port)
    (h : RunsToReference t) : RunsToReference s := by
  obtain ⟨u, hrun, hanswered, hdfmt, hdone⟩ := h
  refine ⟨u, (runPort_of_step hport hstep).trans hrun, ?_, hdfmt.trans hdefault.symm, hdone⟩
  rw [hanswered, hrecord, hanswers, List.append_assoc]

/-- R33, R75, R117: the refinement, by induction on the inputs; each input has its own step. -/
theorem runsToReference_of_dutiesMet {s : State} (hduties : dutiesMet s.phase s.strap s.port = true) :
    RunsToReference s := by
  induction hport : s.port generalizing s with
  | nil => exact ⟨s, runPort_nil hport, by simp [hport, answersFrom], by simp [hport, defaultAfterAll], hport⟩
  | cons e rest ih =>
    have hne : s.port ≠ [] := by simp [hport]
    rw [hport] at hduties
    cases e with
    | command host frame =>
      obtain ⟨hready, ⟨i, hdecode⟩, hrest⟩ := dutiesMet_command.mp hduties
      exact .of_step [⟨host, i, answerUnder s.dfmt i⟩] hne (step_command_closed hready hport hdecode) rfl
        (by simp [hport, answersFrom, hdecode]) (by simp [hport, defaultAfterAll, hdecode]) (ih hrest rfl)
    | reset =>
      exact .of_step [] hne (step_reset hport) (by simp)
        (by simp [hport, answersFrom]) (by simp [hport, defaultAfterAll]) (ih hduties rfl)
    | strap sig =>
      exact .of_step [] hne (step_strap hport) (by simp)
        (by simp [hport, answersFrom]) (by simp [hport, defaultAfterAll]) (ih hduties rfl)
    | commandDuringReset host frame => cases hduties
    | strapDuringReset sig =>
      obtain ⟨hsample, hrest⟩ := dutiesMet_strapDuringReset.mp hduties
      exact .of_step [] hne (step_strapDuringReset_same hport hsample) (by simp)
        (by simp [hport, answersFrom]) (by simp [hport, defaultAfterAll]) (ih hrest rfl)

/-- Settles O50, by induction on the inputs (`runsToReference_of_dutiesMet`). -/
theorem runIsTheReference : Obligations.RunIsTheReference :=
  fun _ => runsToReference_of_dutiesMet

/-- R102: the reference answers every request once, in acceptance order, to the host that issued it. -/
theorem answersFrom_requests {p : Phase} {d : FloatFormat} {sig : CfgSignals} {evs : List Event}
    (hduties : dutiesMet p sig evs = true) :
    (answersFrom d sig evs).map (fun x => (x.host, x.request)) = issued evs := by
  induction evs generalizing p d sig with
  | nil => rfl
  | cons e rest ih =>
    cases e with
    | command host frame =>
      obtain ⟨_, ⟨i, hdecode⟩, hrest⟩ := dutiesMet_command.mp hduties
      simp [answersFrom, issued, hdecode, ih hrest]
    | reset => exact ih (p := .ready) hduties
    | strap sig' => exact ih (p := p) hduties
    | commandDuringReset host frame => cases hduties
    | strapDuringReset sig' => exact ih (dutiesMet_strapDuringReset.mp hduties).2

end Sys2Proof.Safety

/-!
PROOFS. Interleavings, and the statements about two hosts and about repetition (20_memory.md rules R31, R34).
-/
namespace Sys2Proof.Safety

open Sys2Proof.Machine

/-! ### Interleavings as lists -/

theorem Interleaving.swap {α : Type} {as bs cs : List α} (h : Interleaving as bs cs) : Interleaving bs as cs := by
  induction h with
  | done => exact .done
  | fromFirst x _ ih => exact .fromSecond x ih
  | fromSecond x _ ih => exact .fromFirst x ih

theorem Interleaving.forall_mem {α : Type} {p : α → Prop} {as bs cs : List α} (h : Interleaving as bs cs)
    (has : ∀ x ∈ as, p x) (hbs : ∀ x ∈ bs, p x) : ∀ x ∈ cs, p x := by
  induction h with
  | done => exact has
  | fromFirst x _ ih =>
    obtain ⟨hx, has⟩ := List.forall_mem_cons.mp has
    exact List.forall_mem_cons.mpr ⟨hx, ih has hbs⟩
  | fromSecond x _ ih =>
    obtain ⟨hx, hbs⟩ := List.forall_mem_cons.mp hbs
    exact List.forall_mem_cons.mpr ⟨hx, ih has hbs⟩

/-- A test that tells the two lists apart recovers the first from the interleaving, in its own order. -/
theorem Interleaving.filter_eq_first {α : Type} {p : α → Bool} {as bs cs : List α} (h : Interleaving as bs cs)
    (has : ∀ x ∈ as, p x = true) (hbs : ∀ x ∈ bs, p x = false) : cs.filter p = as := by
  induction h with
  | done => rfl
  | fromFirst x _ ih =>
    obtain ⟨hx, has⟩ := List.forall_mem_cons.mp has
    rw [List.filter_cons_of_pos hx, ih has hbs]
  | fromSecond x _ ih =>
    obtain ⟨hx, hbs⟩ := List.forall_mem_cons.mp hbs
    rw [List.filter_cons_of_neg (by simp [hx]), ih has hbs]

theorem Interleaving.of_nil_first {α : Type} {bs cs : List α} (h : Interleaving [] bs cs) : cs = bs := by
  simpa using h.swap.filter_eq_first (p := fun _ => true) (by simp) (by simp)

/-- Two single elements have two interleavings. -/
theorem interleaving_singletons {α : Type} {x y : α} {cs : List α} :
    Interleaving [x] [y] cs ↔ cs = [x, y] ∨ cs = [y, x] := by
  refine ⟨fun h => ?_, ?_⟩
  · cases h with
    | fromFirst _ h => exact .inl (by rw [h.of_nil_first])
    | fromSecond _ h => exact .inr (by rw [h.swap.of_nil_first])
  · rintro (rfl | rfl)
    · exact .fromFirst x (.fromSecond y .done)
    · exact .fromSecond y (.fromFirst x .done)

/-! ### Each host's commands -/

/-- The inputs are well-formed commands of one host. -/
def CommandsOf (host : Nat) (evs : List Event) : Prop :=
  ∀ e ∈ evs, ∃ frame i, e = .command host frame ∧ decodeFrame frame = .ok i

/-- Commands alone meet the hosts' duties to a block that has been reset. -/
theorem dutiesMet_of_commands (sig : CfgSignals) {evs : List Event}
    (h : ∀ e ∈ evs, ∃ host frame i, e = .command host frame ∧ decodeFrame frame = .ok i) :
    dutiesMet .ready sig evs = true := by
  induction evs with
  | nil => rfl
  | cons e rest ih =>
    obtain ⟨⟨host, frame, i, rfl, hdecode⟩, hrest⟩ := List.forall_mem_cons.mp h
    exact dutiesMet_command.mpr ⟨rfl, ⟨i, hdecode⟩, ih hrest⟩

theorem CommandsOf.issued_host {host : Nat} {evs : List Event} (h : CommandsOf host evs) :
    ∀ r ∈ issued evs, r.1 = host := by
  induction evs with
  | nil => simp [issued]
  | cons e rest ih =>
    obtain ⟨⟨frame, i, rfl, hdecode⟩, hrest⟩ := List.forall_mem_cons.mp h
    simpa [issued, hdecode] using ih hrest

theorem issued_singleton_cases (e : Event) : issued [e] = [] ∨ ∃ r, issued [e] = [r] := by
  cases e with
  | command host frame => cases hdecode : decodeFrame frame <;> simp [issued, hdecode]
  | reset | strap | commandDuringReset | strapDuringReset => exact .inl rfl

/-- Interleaved inputs issue interleaved requests; an input without a request drops out of both. -/
theorem Interleaving.issued {as bs cs : List Event} (h : Interleaving as bs cs) :
    Interleaving (issued as) (issued bs) (issued cs) := by
  induction h with
  | done => exact .done
  | @fromFirst e as bs cs _ ih =>
    rw [issued_cons e as, issued_cons e cs]
    rcases issued_singleton_cases e with he | ⟨r, he⟩
    · rw [he]; exact ih
    · rw [he]; exact .fromFirst r ih
  | @fromSecond e as bs cs _ ih =>
    rw [issued_cons e bs, issued_cons e cs]
    rcases issued_singleton_cases e with he | ⟨r, he⟩
    · rw [he]; exact ih
    · rw [he]; exact .fromSecond r ih

/-- R34: among interleaved commands of two hosts, the first host's program is what it issued. -/
theorem programOf_issued_interleaving {a b : Nat} {as bs cs : List Event} (hne : a ≠ b)
    (h : Interleaving as bs cs) (has : CommandsOf a as) (hbs : CommandsOf b bs) :
    programOf a (issued cs) = (issued as).map Prod.snd := by
  have hfilter : (issued cs).filter (fun r => r.1 == a) = issued as :=
    h.issued.filter_eq_first (fun r hr => by simp [has.issued_host r hr])
      (fun r hr => by simp [hbs.issued_host r hr, hne.symm])
  rw [programOf, hfilter]

/-- Settles O53: the run is the reference, which answers the requests as issued; each host's share of those is its program. -/
theorem eachHostsOrderIsKept : Obligations.EachHostsOrderIsKept := by
  intro s a b as bs hne hready hinterleaving has hbs
  have hduties : dutiesMet s.phase s.strap s.port = true := by
    rw [hready]
    exact dutiesMet_of_commands s.strap
      (hinterleaving.forall_mem (fun e he => ⟨a, has e he⟩) (fun e he => ⟨b, hbs e he⟩))
  obtain ⟨t, hrun, hanswered, _, _⟩ := runsToReference_of_dutiesMet hduties
  refine ⟨t, answersFrom s.dfmt s.strap s.port, hrun, hanswered, ?_, ?_⟩
  · rw [answered_to_host, answersFrom_requests hduties]
    exact programOf_issued_interleaving hne hinterleaving has hbs
  · rw [answered_to_host, answersFrom_requests hduties]
    exact programOf_issued_interleaving hne.symm hinterleaving.swap hbs has

/-! ### A race -/

/-- R33, R111: two commands at the port are performed in that order, the second under the default the first leaves. -/
theorem runPort_two_commands {s : State} {a b : Nat} {i j : Instr} (hready : s.phase = .ready) (hi : i.wf = true)
    (hj : j.wf = true) :
    ∃ t, runPort { s with port := commandEvents [(a, i), (b, j)] } = .next t ∧
      t.dfmt = defaultAfter (defaultAfter s.dfmt i) j ∧
      t.answered = s.answered ++ [⟨a, i, answerUnder s.dfmt i⟩, ⟨b, j, answerUnder (defaultAfter s.dfmt i) j⟩] := by
  have hevents : commandEvents [(a, i), (b, j)] = [.command a (encode i), .command b (encode j)] := rfl
  have hduties : dutiesMet s.phase s.strap (commandEvents [(a, i), (b, j)]) = true := by
    rw [hready]
    exact dutiesMet_of_commands s.strap (by simp [hevents, decodeFrame_encode hi, decodeFrame_encode hj])
  obtain ⟨t, hrun, hanswered, hdfmt, _⟩ :=
    runsToReference_of_dutiesMet (s := { s with port := commandEvents [(a, i), (b, j)] }) hduties
  refine ⟨t, hrun, ?_, ?_⟩
  · simpa [hevents, defaultAfterAll, decodeFrame_encode hi, decodeFrame_encode hj] using hdfmt
  · simpa [hevents, answersFrom, decodeFrame_encode hi, decodeFrame_encode hj] using hanswered

/-- R71: what reads DFMT does not write it. -/
theorem defaultAfter_of_readsDefault {i : Instr} (h : readsDefault i = true) (d : FloatFormat) :
    defaultAfter d i = d := by
  cases i with
  | encode | encodeD | decode | decodeD | getfmt => rfl
  | setfmt f => cases h

/-- Settles O54: the race has two orders; the command answers under the new default in one and under the old in the other. -/
theorem racingCommandSeesOldOrNewDefault : Obligations.RacingCommandSeesOldOrNewDefault := by
  intro s a b f i hready hreads hwf
  have hkeeps := defaultAfter_of_readsDefault hreads
  obtain ⟨t, hsetFirst, htDfmt, htAnswered⟩ :=
    runPort_two_commands (a := a) (b := b) (i := .setfmt f) (j := i) hready rfl hwf
  obtain ⟨u, hsetLast, huDfmt, huAnswered⟩ :=
    runPort_two_commands (a := b) (b := a) (i := i) (j := .setfmt f) hready hwf rfl
  refine ⟨fun port hport => ?_, ?_⟩
  · rcases interleaving_singletons.mp hport with rfl | rfl
    · exact ⟨t, answerUnder f i, hsetFirst, htDfmt.trans (hkeeps f), .inl ⟨htAnswered, rfl⟩⟩
    · exact ⟨u, answerUnder s.dfmt i, hsetLast, huDfmt, .inr ⟨huAnswered, rfl⟩⟩
  · rintro d (rfl | rfl)
    · exact ⟨_, u, interleaving_singletons.mpr (.inr rfl), hsetLast, by simp [huAnswered]⟩
    · exact ⟨_, t, interleaving_singletons.mpr (.inl rfl), hsetFirst, by simp [htAnswered, defaultAfter]⟩

/-- Settles O56: the machine evaluated on the three orders. -/
theorem twoHostRaceOutcomes : Obligations.TwoHostRaceOutcomes := ⟨rfl, rfl, rfl⟩

/-! ### Repetition -/

theorem defaultAfter_idem (d : FloatFormat) (i : Instr) : defaultAfter (defaultAfter d i) i = defaultAfter d i := by
  rcases defaultAfter_cases d i with hsame | ⟨f, rfl, _⟩
  · rw [hsame, hsame]
  · rfl

/-- R31: a command does not change what it answers itself; SETFMT changes DFMT but does not read it. -/
theorem answerUnder_defaultAfter_self (d : FloatFormat) (i : Instr) :
    answerUnder (defaultAfter d i) i = answerUnder d i := by
  rcases defaultAfter_cases d i with hsame | ⟨f, rfl, _⟩
  · rw [hsame]
  · rfl

@[simp] theorem lastResponse_respond (s : State) (i : Instr) (r : Response) :
    lastResponse (s.respond i r) = some r := by
  simp [lastResponse]

/-- Settles O31: after the first time the command answers the same and leaves the default it finds. -/
theorem repeatedCommandsAreIdempotent : Obligations.RepeatedCommandsAreIdempotent := by
  intro i s
  refine ⟨_, _, exec_eq i s, exec_eq i _, ?_, ?_⟩
  · simp [answerUnder_defaultAfter_self]
  · simp [defaultAfter_idem]

end Sys2Proof.Safety

/-!
PROOFS. The command byte read back: which byte spells which command, and which bytes are reserved (30_encoding.md rules
R43, R45, R49, R55, R56).
-/
namespace Sys2Proof

@[simp] theorem formatCode_formatOfCode (code : BitVec 2) : formatCode (formatOfCode code) = code := by
  revert code
  decide

/-- R43: the fields of a command byte whose reserved bit is 0 are all of it. -/
theorem assembleCommandByte_fields {c : Byte} (h : cmdReserved c = 0#1) :
    assembleCommandByte (cmdOp c) (cmdD c) (cmdFmt c) = c := by
  rw [assembleCommandByte, ← h, cmdOp, cmdReserved, cmdD, cmdFmt,
    BitVec.extractLsb'_append_extractLsb'_eq_extractLsb' (show 4 = 3 + 1 from rfl),
    BitVec.extractLsb'_append_extractLsb'_eq_extractLsb' (show 3 = 2 + 1 from rfl),
    BitVec.extractLsb'_append_extractLsb'_eq_extractLsb' (show 2 = 0 + 2 from rfl)]
  exact BitVec.extractLsb'_eq_self

/-- R45, R46: a command chosen by the D bit, in a row whose two command bytes are the encoder's, has its own byte. -/
theorem commandByte_of_selectForm {c : Byte} {explicitForm : FloatFormat → Opcode} {dForm op : Opcode}
    (hreserved : cmdReserved c = 0#1)
    (hexplicit : ∀ f, commandByte (explicitForm f) = assembleCommandByte (cmdOp c) 0#1 (formatCode f))
    (hdForm : commandByte dForm = assembleCommandByte (cmdOp c) 1#1 0#2)
    (h : selectForm c explicitForm dForm = .ok op) : commandByte op = c := by
  have hfields := assembleCommandByte_fields hreserved
  unfold selectForm at h
  split at h
  · next hd =>
    obtain rfl := Except.ok.inj h
    rwa [hexplicit, formatCode_formatOfCode, ← hd]
  · next hd =>
    have hd1 : cmdD c = 1#1 := (BitVec.eq_zero_or_eq_one _).resolve_left hd
    split at h
    · next hf =>
      obtain rfl := Except.ok.inj h
      rwa [hdForm, ← hd1, ← hf]
    · cases h

/-- R45: a byte that spells a command is the encoder's byte of that command. -/
theorem commandByte_of_decodeCommandByte {c : Byte} {op : Opcode} (h : decodeCommandByte c = .ok op) :
    commandByte op = c := by
  unfold decodeCommandByte at h
  split at h
  · cases h
  next hne =>
  have hreserved : cmdReserved c = 0#1 := not_not.mp hne
  have hfields := assembleCommandByte_fields hreserved
  split at h
  · next hop => exact commandByte_of_selectForm hreserved (fun _ => by rw [hop]; rfl) (by rw [hop]; rfl) h
  split at h
  · next hop => exact commandByte_of_selectForm hreserved (fun _ => by rw [hop]; rfl) (by rw [hop]; rfl) h
  split at h
  · next hop =>
    split at h
    · next hrest =>
      obtain rfl := Except.ok.inj h
      simpa [commandByte, hop, hrest] using hfields
    · cases h
  split at h
  · next hop =>
    split at h
    · next hd =>
      obtain rfl := Except.ok.inj h
      simpa [commandByte, hop, hd] using hfields
    · cases h
  · cases h

/-- R55: the command bytes are the encoder's, one for each command. -/
theorem decodeCommandByte_eq_ok_iff {c : Byte} {op : Opcode} : decodeCommandByte c = .ok op ↔ commandByte op = c :=
  ⟨commandByte_of_decodeCommandByte, fun h => h ▸ decodeCommandByte_commandByte op⟩

/-- The OP field is one of R45's four or in the first class of R49. -/
theorem opField_cases (op : BitVec 4) : (op = 0#4 ∨ 5 ≤ op.toNat) ∨ op = 1#4 ∨ op = 2#4 ∨ op = 3#4 ∨ op = 4#4 := by
  revert op
  decide

/-- R46, R49: an ENCODE or DECODE byte is reserved exactly as a D-form with a format. -/
theorem selectForm_error_iff {c : Byte} {explicitForm : FloatFormat → Opcode} {dForm : Opcode} :
    (∃ e, selectForm c explicitForm dForm = .error e) ↔ cmdD c = 1#1 ∧ cmdFmt c ≠ 0#2 := by
  rcases BitVec.eq_zero_or_eq_one (cmdD c) with hd | hd
  · simp [selectForm, hd]
  · by_cases hf : cmdFmt c = 0#2 <;> simp [selectForm, hd, hf]

/-- R49: the five classes of reserved command bytes. -/
theorem decodeCommandByte_error_iff {c : Byte} : (∃ e, decodeCommandByte c = .error e) ↔
    (cmdOp c = 0#4 ∨ 5 ≤ (cmdOp c).toNat) ∨ cmdReserved c = 1#1 ∨
    ((cmdOp c = 1#4 ∨ cmdOp c = 2#4) ∧ cmdD c = 1#1 ∧ cmdFmt c ≠ 0#2) ∨
    (cmdOp c = 3#4 ∧ (cmdD c = 1#1 ∨ cmdFmt c ≠ 0#2)) ∨
    (cmdOp c = 4#4 ∧ cmdD c = 1#1) := by
  rcases BitVec.eq_zero_or_eq_one (cmdReserved c) with hr | hr
  swap
  · simp [decodeCommandByte, hr]
  rcases opField_cases (cmdOp c) with hop | hop | hop | hop | hop
  · have hne : cmdOp c ≠ 1#4 ∧ cmdOp c ≠ 2#4 ∧ cmdOp c ≠ 3#4 ∧ cmdOp c ≠ 4#4 := by
      refine ⟨?_, ?_, ?_, ?_⟩ <;> rintro h <;> simp [h] at hop
    simp [decodeCommandByte, hr, hop, hne]
  · simp [decodeCommandByte, hr, hop, selectForm_error_iff]
  · simp [decodeCommandByte, hr, hop, selectForm_error_iff]
  · rcases BitVec.eq_zero_or_eq_one (cmdD c) with hd | hd
    · by_cases hf : cmdFmt c = 0#2 <;> simp [decodeCommandByte, hr, hop, hd, hf]
    · simp [decodeCommandByte, hr, hop, hd]
  · rcases BitVec.eq_zero_or_eq_one (cmdD c) with hd | hd <;> simp [decodeCommandByte, hr, hop, hd]

end Sys2Proof

/-!
PROOFS. The operand bytes read back, and with them the frame: decoding and encoding are inverse (30_encoding.md rules R42,
R44, R47).
-/
namespace Sys2Proof

theorem exceptMap_eq_ok_iff {ε α β : Type} {f : α → β} {x : Except ε α} {b : β} :
    x.map f = .ok b ↔ ∃ a, x = .ok a ∧ f a = b := by
  cases x with
  | error e => simp [Except.map]
  | ok a => simp [Except.map]

theorem readNothing_eq_ok_iff {operands : List Byte} {u : Unit} : readNothing operands = .ok u ↔ operands = [] := by
  cases operands with
  | nil => simp [readNothing]
  | cons b bs => simp [readNothing]

/-- R44: the slices of a VALUE are the bytes it was joined from. -/
@[simp] theorem valueBytes_valueOfBytes (b1 b2 b3 b4 : Byte) :
    valueBytes (valueOfBytes b1 b2 b3 b4) = [b1, b2, b3, b4] := by
  have byte1 : (b1 ++ b2 ++ b3 ++ b4).extractLsb' 24 8 = b1 :=
    (BitVec.extractLsb'_append_eq_of_le (by decide)).trans
      ((BitVec.extractLsb'_append_eq_of_le (by decide)).trans BitVec.extractLsb'_append_eq_left)
  have byte2 : (b1 ++ b2 ++ b3 ++ b4).extractLsb' 16 8 = b2 :=
    (BitVec.extractLsb'_append_eq_of_le (by decide)).trans
      ((BitVec.extractLsb'_append_eq_of_le (by decide)).trans BitVec.extractLsb'_append_eq_right)
  have byte3 : (b1 ++ b2 ++ b3 ++ b4).extractLsb' 8 8 = b3 :=
    (BitVec.extractLsb'_append_eq_of_le (by decide)).trans BitVec.extractLsb'_append_eq_right
  have byte4 : (b1 ++ b2 ++ b3 ++ b4).extractLsb' 0 8 = b4 := BitVec.extractLsb'_append_eq_right
  calc valueBytes (valueOfBytes b1 b2 b3 b4)
      = [(b1 ++ b2 ++ b3 ++ b4).extractLsb' 24 8, (b1 ++ b2 ++ b3 ++ b4).extractLsb' 16 8,
          (b1 ++ b2 ++ b3 ++ b4).extractLsb' 8 8, (b1 ++ b2 ++ b3 ++ b4).extractLsb' 0 8] := rfl
    _ = [b1, b2, b3, b4] := by rw [byte1, byte2, byte3, byte4]

theorem readValue_eq_ok_iff {operands : List Byte} {v : Pattern32} :
    readValue operands = .ok v ↔ operands = valueBytes v := by
  refine ⟨fun h => ?_, fun h => h ▸ readValue_valueBytes v⟩
  match operands with
  | [b1, b2, b3, b4] =>
    obtain rfl := Except.ok.inj h
    exact (valueBytes_valueOfBytes b1 b2 b3 b4).symm
  | [] | [_] | [_, _] | [_, _, _] => cases h
  | _ :: _ :: _ :: _ :: _ :: _ => cases h

@[simp] theorem wordBytes_wordOfBytes (high low : Byte) : wordBytes (wordOfBytes high low) = [high, low] := by
  exact congrArg₂ (fun a b => [a, b]) BitVec.extractLsb'_append_eq_left BitVec.extractLsb'_append_eq_right

/-- R44: an even number of bytes is the bytes of its words. -/
theorem wordsBytes_wordsOfBytes {n : Nat} {data : List Byte} (h : data.length = 2 * n) :
    wordsBytes (wordsOfBytes data) = data := by
  induction n generalizing data with
  | zero => rw [List.length_eq_zero_iff.mp h]; rfl
  | succ n ih =>
    match data with
    | [] => rfl
    | [_] => simp at h; omega
    | high :: low :: rest => 
      have hrest : rest.length = 2 * n := by simp at h; omega
      simp [wordsOfBytes, wordsBytes, ih hrest]

theorem readRegs_eq_ok_iff {operands : List Byte} {regs : List Word16} :
    readRegs operands = .ok regs ↔ lenFits regs = true ∧ operands = regsBytes regs := by
  refine ⟨fun h => ?_, fun ⟨hfits, hbytes⟩ => hbytes ▸ readRegs_regsBytes hfits⟩
  cases operands with
  | nil => cases h
  | cons len data =>
    rw [readRegs] at h
    split_ifs at h with hshort hlong
    obtain rfl := Except.ok.inj h
    have hdata : data.length = 2 * len.toNat := Nat.le_antisymm (not_lt.mp hlong) (not_lt.mp hshort)
    have hbytes : wordsBytes (wordsOfBytes data) = data := wordsBytes_wordsOfBytes hdata
    have hwords : (wordsOfBytes data).length = len.toNat := by
      have := congrArg List.length hbytes
      rw [wordsBytes_length] at this
      omega
    refine ⟨decide_eq_true ?_, ?_⟩
    · rw [hwords]
      exact Nat.le_of_lt_succ len.isLt
    · rw [regsBytes, hbytes, hwords, BitVec.ofNat_toNat, BitVec.setWidth_eq]

/-- R42, R47: what a command's operand reader accepts are operand bytes of that command's well-formed requests. -/
theorem encode_of_readOperands {op : Opcode} {operands : List Byte} {i : Instr}
    (h : readOperands op operands = .ok i) : i.wf = true ∧ encode i = commandByte op :: operands := by
  cases op with
  | encode | encodeD =>
    obtain ⟨v, hv, rfl⟩ := exceptMap_eq_ok_iff.mp h
    exact ⟨rfl, by rw [encode, readValue_eq_ok_iff.mp hv]⟩
  | decode | decodeD =>
    obtain ⟨regs, hregs, rfl⟩ := exceptMap_eq_ok_iff.mp h
    obtain ⟨hfits, hbytes⟩ := readRegs_eq_ok_iff.mp hregs
    exact ⟨hfits, by rw [encode, hbytes]⟩
  | getfmt | setfmt =>
    obtain ⟨u, hu, rfl⟩ := exceptMap_eq_ok_iff.mp h
    exact ⟨rfl, by rw [encode, readNothing_eq_ok_iff.mp hu]⟩

/-- R42 to R47: a frame spells a request exactly if it is the frame of that request, which is well-formed. -/
theorem decodeFrame_eq_ok_iff {frame : List Byte} {i : Instr} :
    decodeFrame frame = .ok i ↔ i.wf = true ∧ encode i = frame := by
  refine ⟨fun h => ?_, fun ⟨hwf, hframe⟩ => hframe ▸ decodeFrame_encode hwf⟩
  cases frame with
  | nil => cases h
  | cons c operands =>
    cases hc : decodeCommandByte c with
    | error e => simp [decodeFrame, hc] at h
    | ok op =>
      obtain rfl := decodeCommandByte_eq_ok_iff.mp hc
      rw [decodeFrame_commandByte_cons] at h
      exact encode_of_readOperands h

end Sys2Proof

/-!
PROOFS. The length of a frame (30_encoding.md rule R47), and the statements about request frames and command bytes.
-/
namespace Sys2Proof.Safety

open Sys2Proof.Machine

/-- Settles O5: what the encoder writes, the decoder reads. -/
theorem decodeOfEncodeIsTheRequest : Obligations.DecodeOfEncodeIsTheRequest := fun _ => decodeFrame_encode

/-- Settles O6: a frame spells no other request than the one whose frame it is. -/
theorem encodeOfDecodeIsTheFrame : Obligations.EncodeOfDecodeIsTheFrame := fun _ _ => decodeFrame_eq_ok_iff.mp

/-! ### The length rule -/

@[simp] theorem cmdOp_assembleCommandByte (op : BitVec 4) (d : BitVec 1) (fmt : BitVec 2) :
    cmdOp (assembleCommandByte op d fmt) = op :=
  (BitVec.extractLsb'_append_eq_of_le (by decide)).trans
    ((BitVec.extractLsb'_append_eq_of_le (by decide)).trans BitVec.extractLsb'_append_eq_left)

theorem exists_readNothing_iff {operands : List Byte} :
    (∃ u, readNothing operands = .ok u) ↔ operands.length = 0 := by
  simp [readNothing_eq_ok_iff]

theorem exists_readValue_iff {operands : List Byte} : (∃ v, readValue operands = .ok v) ↔ operands.length = 4 := by
  constructor
  · rintro ⟨v, hv⟩
    rw [readValue_eq_ok_iff.mp hv, valueBytes_length]
  · intro h
    match operands with
    | [b1, b2, b3, b4] => exact ⟨_, rfl⟩

theorem exists_readRegs_iff {operands : List Byte} :
    (∃ regs, readRegs operands = .ok regs) ↔
      ∃ len data, operands = len :: data ∧ operands.length + 1 = 2 + 2 * len.toNat := by
  cases operands with
  | nil => simp [readRegs]
  | cons len data =>
    rcases lt_trichotomy data.length (2 * len.toNat) with hshort | hlength | hlong
    · simp [readRegs, hshort]
      omega
    · simp [readRegs, hlength]
      omega
    · simp [readRegs, hlong, hlong.not_gt]
      omega

theorem answerUnder_decode_eq_invalidInput_iff {d f : FloatFormat} {regs : List Word16} :
    answerUnder d (.decode f regs) = .error .invalidInput ↔ regs.length ≠ 2 := by
  match regs with
  | [] | [_] | [_, _] | _ :: _ :: _ :: _ => simp [answerUnder]

/-- R65, R66: INVALID_INPUT is the answer to a register sequence of a wrong length and to nothing else. -/
theorem answerUnder_eq_invalidInput_iff {d : FloatFormat} {i : Instr} :
    answerUnder d i = .error .invalidInput ↔ wrongLength i = true := by
  cases i with
  | encode | encodeD | getfmt | setfmt => simp [answerUnder, wrongLength]
  | decode f regs => simp [answerUnder_decode_eq_invalidInput_iff, wrongLength]
  | decodeD regs => simp [answerUnder_decodeD, answerUnder_decode_eq_invalidInput_iff, wrongLength]

/-- R44, R47: LEN is the number of register words of the request that the frame spells. -/
theorem len_eq_of_regsBytes {regs : List Word16} {len : Byte} {data : List Byte} (hfits : lenFits regs = true)
    (h : regsBytes regs = len :: data) : regs.length = len.toNat := by
  have hlen : regs.length ≤ 255 := of_decide_eq_true hfits
  rw [← (List.cons.inj h).1, BitVec.toNat_ofNat, Nat.mod_eq_of_lt (Nat.lt_succ_of_le hlen)]

/-- R47: a frame with OP `0010` spells a request of a wrong length exactly if its LEN is not 2. -/
theorem wrongLength_iff_of_decodeFrame {c len : Byte} {data : List Byte} {i : Instr} (hop : cmdOp c = 0b0010#4)
    (hdecode : decodeFrame (c :: len :: data) = .ok i) : wrongLength i = true ↔ len.toNat ≠ 2 := by
  obtain ⟨hwf, hframe⟩ := decodeFrame_eq_ok_iff.mp hdecode
  cases i with
  | encode | encodeD | getfmt | setfmt =>
    obtain ⟨rfl, _⟩ := List.cons.inj hframe
    simp [commandByte] at hop
  | decode f regs => simp [wrongLength, len_eq_of_regsBytes hwf (List.cons.inj hframe).2]
  | decodeD regs => simp [wrongLength, len_eq_of_regsBytes hwf (List.cons.inj hframe).2]

/-- Settles O4: each command's operand reader accepts one length. -/
theorem frameLengthRule : Obligations.FrameLengthRule := by
  refine ⟨rfl, fun c op operands hc => ⟨?_, ?_⟩⟩
  · obtain rfl := decodeCommandByte_eq_ok_iff.mp hc
    rw [decodeFrame_commandByte_cons]
    cases op with
    | encode | encodeD => simp [readOperands, exceptMap_eq_ok_iff, commandByte, exists_readValue_iff]
    | decode | decodeD => simp [readOperands, exceptMap_eq_ok_iff, commandByte, exists_readRegs_iff]
    | getfmt | setfmt => simp [readOperands, exceptMap_eq_ok_iff, commandByte, exists_readNothing_iff]
  · rintro len data i hop rfl hdecode s
    refine ⟨_, exec_eq i s, ?_⟩
    rw [lastResponse_respond, Option.some.injEq, answerUnder_eq_invalidInput_iff]
    exact wrongLength_iff_of_decodeFrame hop hdecode

/-! ### Command bytes -/

/-- The 15 commands of R55's grid, in the order of their bytes. -/
def allOpcodes : List Opcode :=
  [.encode .format1, .encode .format2, .encode .format3, .encode .format4, .encodeD,
   .decode .format1, .decode .format2, .decode .format3, .decode .format4, .decodeD,
   .getfmt, .setfmt .format1, .setfmt .format2, .setfmt .format3, .setfmt .format4]

theorem mem_allOpcodes (op : Opcode) : op ∈ allOpcodes := by
  cases op with
  | encode f | decode f | setfmt f => cases f <;> decide
  | encodeD | decodeD | getfmt => decide

/-- Settles O2: the grid lists every command beside the encoder's byte of it. -/
theorem fifteenCommandBytes : Obligations.FifteenCommandBytes := by
  intro c op
  change decodeCommandByte c = .ok op ↔ (c, op) ∈ allOpcodes.map fun op => (commandByte op, op)
  simp [decodeCommandByte_eq_ok_iff, mem_allOpcodes]

/-- Settles O1: the masks and matches are literals, and the rows and the decoder are compared on each of the 256 bytes. -/
theorem commandByteSelectsItsTableRow : Obligations.CommandByteSelectsItsTableRow :=
  ⟨rfl, by decide⟩

/-- R49, R98: the port refuses a frame that spells no request, whatever the phase. -/
theorem step_invalidRequest {s : State} {host : Nat} {frame : List Byte} {rest : List Event} {e : DecodeError}
    (hport : s.port = .command host frame :: rest) (hdecode : decodeFrame frame = .error e) :
    step s = .refused (.invalidRequest e) := by
  simp [step, State.nextInput, hport, State.admitCommand, hdecode]

/-- Settles O3: the classes of R49 are those the decoder's branches reject, before it looks at any operand byte. -/
theorem reservedEncodingsAreRefused : Obligations.ReservedEncodingsAreRefused :=
  ⟨fun _ => decodeCommandByte_error_iff, fun _ _ _ hc => by rw [decodeFrame, hc], fun _ _ _ _ _ => step_invalidRequest⟩

/-- Settles O7: each frame of the listing is the encoder's frame of the command beside it. -/
theorem listingFramesDecode : Obligations.ListingFramesDecode :=
  ⟨decodeFrame_eq_ok_iff.mpr ⟨rfl, rfl⟩, decodeFrame_eq_ok_iff.mpr ⟨rfl, rfl⟩, decodeFrame_eq_ok_iff.mpr ⟨rfl, rfl⟩,
    decodeFrame_eq_ok_iff.mpr ⟨rfl, rfl⟩, decodeFrame_eq_ok_iff.mpr ⟨rfl, rfl⟩, decodeFrame_eq_ok_iff.mpr ⟨rfl, rfl⟩⟩

theorem decodeTableWord_eq_some_iff {nbits w : Nat} {i : Instr} :
    decodeTableWord nbits w = some i ↔ decodeFrame (frameOfTableWord nbits w) = .ok i := by
  unfold decodeTableWord
  cases decodeFrame (frameOfTableWord nbits w) <;> simp

/-- Settles O8: the word's frame is the next input of a block made ready, and the port accepts it for host 0. -/
theorem tableWordIsTheNextCommand : Obligations.TableWordIsTheNextCommand := fun s _ _ _ h =>
  step_command_eq_exec (State.presentFrame_phase s _) (State.presentFrame_port s _) (decodeTableWord_eq_some_iff.mp h)

end Sys2Proof.Safety

/-!
PROOFS. Response frames and the STATUS byte (30_encoding.md rules R50, R51), the D-forms (rule R54), and the length limit of
the configuration strap (rule R52).
-/
namespace Sys2Proof.Safety

open Sys2Proof.Machine

/-! ### Response frames -/

theorem wordBytes_append_injective {a b a' b' : Word16} (h : wordBytes a ++ wordBytes b = wordBytes a' ++ wordBytes b') :
    a = a' ∧ b = b' := by
  have hwords : wordsOfBytes (wordsBytes [a, b]) = wordsOfBytes (wordsBytes [a', b']) := by
    simpa [wordsBytes] using congrArg wordsOfBytes h
  simpa using hwords

theorem valueBytes_injective {v v' : Pattern32} (h : valueBytes v = valueBytes v') : v = v' :=
  Except.ok.inj ((readValue_valueBytes v).symm.trans ((congrArg readValue h).trans (readValue_valueBytes v')))

theorem fmtByte_injective {f f' : FloatFormat} (h : 0#6 ++ formatCode f = 0#6 ++ formatCode f') : f = f' := by
  have hcode : formatCode f = formatCode f' := by
    rw [← BitVec.extractLsb'_append_eq_right (a := 0#6) (b := formatCode f), h, BitVec.extractLsb'_append_eq_right]
  rw [← formatOfCode_formatCode f, hcode, formatOfCode_formatCode]

/-- R50: the shape of a command's responses. -/
def RowShape : Instr → Response → Prop
  | .encode _ _, r => ∃ p, r = .pair p
  | .encodeD _, r => ∃ p, r = .pair p
  | .decode _ _, r => (∃ v, r = .value v) ∨ r = .error .invalidInput
  | .decodeD _, r => (∃ v, r = .value v) ∨ r = .error .invalidInput
  | .getfmt, r => ∃ f, r = .fmt f
  | .setfmt _, r => r = .ack

theorem rowShape_of_fitsRow {i : Instr} {r : Response} (h : fitsRow i r = true) : RowShape i r := by
  cases r with
  | pair p =>
    cases i with
    | encode | encodeD => exact ⟨p, rfl⟩
    | decode | decodeD | getfmt | setfmt => cases h
  | value v =>
    cases i with
    | decode | decodeD => exact .inl ⟨v, rfl⟩
    | encode | encodeD | getfmt | setfmt => cases h
  | fmt f =>
    cases i with
    | getfmt => exact ⟨f, rfl⟩
    | encode | encodeD | decode | decodeD | setfmt => cases h
  | ack =>
    cases i with
    | setfmt => rfl
    | encode | encodeD | decode | decodeD | getfmt => cases h
  | error e =>
    obtain ⟨⟩ := e
    cases i with
    | decode | decodeD => exact .inr rfl
    | encode | encodeD | getfmt | setfmt => cases h

/-- R50: within a row, STATUS tells the kind of the response and the payload its fields. -/
theorem frame_injective_of_rowShape {i : Instr} {r r' : Response} (hr : RowShape i r) (hr' : RowShape i r')
    (h : r.frame = r'.frame) : r = r' := by
  obtain ⟨hstatus, hpayload⟩ := List.cons.inj h
  cases i with
  | encode | encodeD =>
    obtain ⟨p, rfl⟩ := hr
    obtain ⟨p', rfl⟩ := hr'
    obtain ⟨h0, h1⟩ := wordBytes_append_injective hpayload
    exact congrArg Response.pair (congrArg₂ RegisterPair.mk h0 h1)
  | decode | decodeD =>
    rcases hr with ⟨v, rfl⟩ | rfl <;> rcases hr' with ⟨v', rfl⟩ | rfl
    · exact congrArg Response.value (valueBytes_injective hpayload)
    · simp [Response.status, ErrorCode.status] at hstatus
    · simp [Response.status, ErrorCode.status] at hstatus
    · rfl
  | getfmt =>
    obtain ⟨f, rfl⟩ := hr
    obtain ⟨f', rfl⟩ := hr'
    exact congrArg Response.fmt (fmtByte_injective (List.cons.inj hpayload).1)
  | setfmt => exact hr.trans hr'.symm

/-- Settles O29, by the shapes of the six rows. -/
theorem responseFramesTellTheResponse : Obligations.ResponseFramesTellTheResponse := by
  intro i r hfits
  have hr : RowShape i r := rowShape_of_fitsRow hfits
  refine ⟨fun r' hfits' => frame_injective_of_rowShape hr (rowShape_of_fitsRow hfits'), ?_, ?_⟩
  · cases i with
    | encode | encodeD | getfmt =>
      obtain ⟨_, rfl⟩ := hr
      rfl
    | decode | decodeD => rcases hr with ⟨_, rfl⟩ | rfl <;> rfl
    | setfmt =>
      obtain rfl := hr
      rfl
  · rcases r with p | v | f | - | ⟨⟨⟩⟩ <;> rfl

/-! ### STATUS and the D-forms -/

/-- R51: STATUS `0x01` is that of INVALID_INPUT, and every other response has `0x00`. -/
theorem status_eq (r : Response) : r.status = if r = .error .invalidInput then 0x01#8 else 0x00#8 := by
  rcases r with p | v | f | - | ⟨⟨⟩⟩ <;> rfl

/-- Settles O30: the last response is the answer to the command just performed, which is INVALID_INPUT for a wrong length. -/
theorem statusIsOkOrInvalidInput : Obligations.StatusIsOkOrInvalidInput := by
  intro i s t r hexec hlast
  rw [exec_next hexec, lastResponse_respond] at hlast
  rw [← Option.some.inj hlast, status_eq]
  simp only [answerUnder_eq_invalidInput_iff]

/-- Settles O32: GETFMT answers the default and leaves it, and a D-form is the explicit form under the default. -/
theorem dFormIsGetfmtThenExplicit : Obligations.DFormIsGetfmtThenExplicit := by
  intro s
  refine ⟨_, s.dfmt, exec_eq .getfmt s, lastResponse_respond _ _ _, fun v => ?_, fun regs => ?_⟩
  · exact ⟨_, _, exec_eq _ _, exec_eq _ s, by simp [answerUnder], rfl⟩
  · exact ⟨_, _, exec_eq _ _, exec_eq _ s, by simp [answerUnder_decodeD, defaultAfter], rfl⟩

/-! ### The cut string -/

theorem formatName_length (f : FloatFormat) : (formatName f).length = 8 := by
  cases f <;> rfl

/-- R82, R83: a string whose length is not that of a name resolves to the fallback. -/
theorem resolveDefault_of_length_ne {bytes : List Byte} (h : bytes.length ≠ 8) :
    resolveDefault (.present bytes) = .format1 :=
  resolveDefault_of_no_name fun f hf => h (by rw [Cfg.present.inj hf, formatName_length])

/-- R52: the ninth byte already tells that a string is too long to be a name. -/
theorem resolveDefault_take {maxLen : Nat} (h : 9 ≤ maxLen) (bytes : List Byte) :
    resolveDefault (.present (bytes.take maxLen)) = resolveDefault (.present bytes) := by
  rcases Nat.le_total bytes.length maxLen with hshort | hlong
  · rw [List.take_of_length_le hshort]
  · rw [resolveDefault_of_length_ne (by rw [List.length_take]; omega), resolveDefault_of_length_ne (by omega)]

/-- Settles O44: the limit of the strap is 255. -/
theorem cutStringResolvesAlike : Obligations.CutStringResolvesAlike := by
  refine ⟨fun _ bytes h => resolveDefault_take h bytes, fun cfg => ?_, fun _ => rfl⟩
  cases cfg with
  | absent => rfl
  | present bytes =>
    calc resolveDefault (CfgSignals.ofCfg (.present bytes)).sample
        = resolveDefault (.present ((bytes.take Config.cfgMaxLen).take Config.cfgMaxLen)) := rfl
      _ = resolveDefault (.present bytes) := by simp only [resolveDefault_take (show 9 ≤ Config.cfgMaxLen by decide)]

end Sys2Proof.Safety

/-!
PROOFS. The two stages of the data path on register pairs (40_codec.md rules R59, R60, R72): the exchange of bytes, the
exchange of words, and how the stages of two formats compose.
-/
namespace Sys2Proof.Safety

open Sys2Proof.Machine

/-! ### Words and their bytes -/

@[simp] theorem lowByte_append (a b : Byte) : lowByte (a ++ b) = b := BitVec.extractLsb'_append_eq_right

@[simp] theorem highByte_append (a b : Byte) : highByte (a ++ b) = a := BitVec.extractLsb'_append_eq_left

theorem highByte_append_lowByte (w : Word16) : highByte w ++ lowByte w = w := wordOfBytes_slices w

/-- A word is its two bytes. -/
theorem word_eq_iff {w w' : Word16} : w = w' ↔ highByte w = highByte w' ∧ lowByte w = lowByte w' := by
  refine ⟨fun h => h ▸ ⟨rfl, rfl⟩, fun ⟨hhigh, hlow⟩ => ?_⟩
  rw [← highByte_append_lowByte w, hhigh, hlow, highByte_append_lowByte]

/-- R59: the byte exchange is its own inverse. -/
@[simp] theorem bswap16_bswap16 (w : Word16) : bswap16 (bswap16 w) = w := by
  simp [bswap16, highByte_append_lowByte]

/-- R59: the byte exchange leaves alone exactly the words whose two bytes are equal. -/
theorem bswap16_eq_self_iff {w : Word16} : bswap16 w = w ↔ highByte w = lowByte w := by
  rw [word_eq_iff, bswap16, highByte_append, lowByte_append, eq_comm, and_self]

/-! ### Pairs and the packed word -/

/-- R74: the inverse of `packed`, the high-order half first. -/
def unpacked (v : Pattern32) : RegisterPair := ⟨highHalf v, lowHalf v⟩

@[simp] theorem packed_unpacked (v : Pattern32) : packed (unpacked v) = v := by
  rw [packed, unpacked, highHalf, lowHalf,
    BitVec.extractLsb'_append_extractLsb'_eq_extractLsb' (show 16 = 0 + 16 from rfl)]
  exact BitVec.extractLsb'_eq_self

@[simp] theorem unpacked_packed (p : RegisterPair) : unpacked (packed p) = p :=
  congrArg₂ RegisterPair.mk BitVec.extractLsb'_append_eq_left BitVec.extractLsb'_append_eq_right

/-! ### The stages -/

/-- R14, R60: the format whose stages are those of `f` and `g` together: a stage exchanges exactly if one of the two does.
`FORMAT_2` exchanges nothing, so its code `01` is the one to correct for. -/
def combined (f g : FloatFormat) : FloatFormat := formatOfCode (formatCode f ^^^ formatCode g ^^^ 0b01#2)

theorem formatCode_combined (f g : FloatFormat) :
    formatCode (combined f g) = formatCode f ^^^ formatCode g ^^^ 0b01#2 := formatCode_formatOfCode _

theorem bigEndian_combined (f g : FloatFormat) : bigEndian (combined f g) = (bigEndian f ^^ bigEndian g) := by
  simp [bigEndian, formatCode_combined]

theorem wordsNatural_combined (f g : FloatFormat) :
    wordsNatural (combined f g) = !(wordsNatural f ^^ wordsNatural g) := by
  simp [wordsNatural, formatCode_combined]

@[simp] theorem combined_self (f : FloatFormat) : combined f f = .format2 := by
  cases f <;> rfl

/-- R60: the byte-order step on both words of a pair. -/
def orderBothBytes (f : FloatFormat) (p : RegisterPair) : RegisterPair := ⟨orderBytes f p.r0, orderBytes f p.r1⟩

theorem orderBytes_orderBytes (f g : FloatFormat) (w : Word16) :
    orderBytes g (orderBytes f w) = orderBytes (combined f g) w := by
  rw [orderBytes, orderBytes, orderBytes, bigEndian_combined]
  cases bigEndian f <;> cases bigEndian g <;> simp

theorem orderWords_orderWords (f g : FloatFormat) (p : RegisterPair) :
    orderWords g (orderWords f p) = orderWords (combined f g) p := by
  rw [orderWords, orderWords, orderWords, wordsNatural_combined]
  cases wordsNatural f <;> cases wordsNatural g <;> rfl

/-- R72: the stages act on different things, so their order does not matter. -/
theorem orderBothBytes_orderWords (f g : FloatFormat) (p : RegisterPair) :
    orderBothBytes g (orderWords f p) = orderWords f (orderBothBytes g p) := by
  rw [orderWords, orderWords]
  cases wordsNatural f <;> rfl

/-- R74: both stages of a format, as one rearrangement of a pair. -/
def rearrange (f : FloatFormat) (p : RegisterPair) : RegisterPair := orderWords f (orderBothBytes f p)

/-- R74: the rearrangements are closed under composition. -/
theorem rearrange_rearrange (f g : FloatFormat) (p : RegisterPair) :
    rearrange g (rearrange f p) = rearrange (combined f g) p := by
  rw [rearrange, rearrange, rearrange, orderBothBytes_orderWords, orderWords_orderWords]
  exact congrArg (orderWords _)
    (congrArg₂ RegisterPair.mk (orderBytes_orderBytes f g p.r0) (orderBytes_orderBytes f g p.r1))

@[simp] theorem rearrange_format2 (p : RegisterPair) : rearrange .format2 p = p := rfl

@[simp] theorem rearrange_self (f : FloatFormat) (p : RegisterPair) : rearrange f (rearrange f p) = p := by
  rw [rearrange_rearrange, combined_self, rearrange_format2]

/-- R61: `Enc` rearranges the two halves. -/
theorem enc_eq_rearrange (v : Pattern32) (f : FloatFormat) : enc v f = rearrange f (unpacked v) :=
  orderBothBytes_orderWords f f (unpacked v)

/-- R62: `Dec` rearranges the pair and packs it. -/
theorem dec_eq_rearrange (p : RegisterPair) (f : FloatFormat) : dec p f = packed (rearrange f p) := rfl

/-- R67, one direction. -/
@[simp] theorem dec_enc (v : Pattern32) (f : FloatFormat) : dec (enc v f) f = v := by
  simp [enc_eq_rearrange, dec_eq_rearrange]

/-- R67, the other direction. -/
@[simp] theorem enc_dec (p : RegisterPair) (f : FloatFormat) : enc (dec p f) f = p := by
  simp [enc_eq_rearrange, dec_eq_rearrange]

/-- R74: `Dec` under `f` is the permutation of the packed pair. -/
theorem dec_eq_permute (p : RegisterPair) (f : FloatFormat) : dec p f = permute f (packed p) := by
  rw [permute, enc_eq_rearrange, unpacked_packed, dec_eq_rearrange]

/-- R74: decoding under `g` what was encoded under `f`. -/
theorem dec_enc_eq_permute (v : Pattern32) (f g : FloatFormat) : dec (enc v f) g = permute g (permute f v) :=
  dec_eq_permute (enc v f) g

/-- R74: the four permutations are closed under composition. -/
theorem permute_permute (f g : FloatFormat) (v : Pattern32) :
    permute g (permute f v) = permute (combined f g) v := by
  simp [permute, enc_eq_rearrange, rearrange_rearrange]

@[simp] theorem permute_format2 (v : Pattern32) : permute .format2 v = v := packed_unpacked v

end Sys2Proof.Safety

/-!
PROOFS. The statements about the data path (40_codec.md rules R59, R61, R62, R67, R74).
-/
namespace Sys2Proof.Safety

open Sys2Proof.Machine

/-- Settles O9: exchanging the two bytes once more puts them back. -/
theorem byteSwapUnit : Obligations.ByteSwapUnit :=
  ⟨fun _ => rfl, bswap16_bswap16, fun _ => bswap16_eq_self_iff, rfl, rfl, rfl, rfl⟩

/-- Settles O10: `Dec` undoes `Enc` and nothing else, since `Enc` undoes `Dec` as well. -/
theorem encIsItsClosedForm : Obligations.EncIsItsClosedForm := by
  refine ⟨enc_eq_encTable, fun v f p => ⟨?_, ?_⟩, rfl⟩
  · rintro rfl
    exact (enc_dec p f).symm
  · rintro rfl
    exact dec_enc v f

/-- Settles O11. -/
theorem decIsItsClosedForm : Obligations.DecIsItsClosedForm := ⟨dec_eq_decTable, rfl⟩

/-- Settles O12: each function has the other as its inverse. -/
theorem roundTripBothWays : Obligations.RoundTripBothWays :=
  ⟨dec_enc, enc_dec, fun f =>
    ⟨Function.bijective_iff_has_inverse.mpr ⟨fun p => dec p f, fun v => dec_enc v f, fun p => enc_dec p f⟩,
      Function.bijective_iff_has_inverse.mpr ⟨fun v => enc v f, fun p => enc_dec p f, fun v => dec_enc v f⟩⟩⟩

/-- R74: of three distinct codes other than `FORMAT_2`'s, two combine to the third. -/
theorem code_xor_eq_third (a b c : BitVec 2) (ha : a ≠ 1#2) (hb : b ≠ 1#2) (hc : c ≠ 1#2) (hab : a ≠ b) (hac : a ≠ c)
    (hbc : b ≠ c) : a ^^^ b ^^^ 1#2 = c := by
  revert a b c
  decide

theorem formatCode_ne {f g : FloatFormat} (h : f ≠ g) : formatCode f ≠ formatCode g := fun hcode =>
  h (by rw [← formatOfCode_formatCode f, hcode, formatOfCode_formatCode])

/-- R74: of three distinct formats other than `FORMAT_2`, two combine to the third. -/
theorem combined_eq_third {f g h : FloatFormat} (hf : f ≠ .format2) (hg : g ≠ .format2) (hh : h ≠ .format2)
    (hfg : f ≠ g) (hfh : f ≠ h) (hgh : g ≠ h) : combined f g = h := by
  have hcode : formatCode f ^^^ formatCode g ^^^ 0b01#2 = formatCode h :=
    code_xor_eq_third _ _ _ (formatCode_ne hf) (formatCode_ne hg) (formatCode_ne hh) (formatCode_ne hfg)
      (formatCode_ne hfh) (formatCode_ne hgh)
  rw [combined, hcode, formatOfCode_formatCode]

/-! ### The permutations as tables of bytes -/

theorem permute_format1 (v : Pattern32) : permute .format1 v = v.extractLsb' 0 16 ++ v.extractLsb' 16 16 := rfl

theorem permute_format4 (v : Pattern32) : permute .format4 v =
    v.extractLsb' 16 8 ++ v.extractLsb' 24 8 ++ v.extractLsb' 0 8 ++ v.extractLsb' 8 8 := by
  rw [permute, enc_eq_encTable]
  exact join_two_words _ _ _ _

theorem permute_format3 (v : Pattern32) : permute .format3 v =
    v.extractLsb' 0 8 ++ v.extractLsb' 8 8 ++ v.extractLsb' 16 8 ++ v.extractLsb' 24 8 := by
  rw [permute, enc_eq_encTable]
  exact join_two_words _ _ _ _

/-- Settles O14: the four permutations compose as `combined` says, and the relations between the pairs are the stages
themselves. -/
theorem onePermutationBothDirections : Obligations.OnePermutationBothDirections := by
  refine ⟨fun v => ⟨permute_format2 v, permute_format1 v, permute_format4 v, permute_format3 v⟩, fun f v => ?_,
    fun f p => dec_eq_permute p f, fun v => ⟨rfl, rfl, rfl, rfl⟩, fun f g v => dec_enc_eq_permute v f g,
    fun f g h v hf hg hh hfg hfh hgh => ?_⟩
  · rw [permute_permute, combined_self, permute_format2]
  · rw [permute_permute, combined_eq_third hf hg hh hfg hfh hgh]

end Sys2Proof.Safety

/-!
PROOFS. Which formats give the same pair (40_codec.md rule R69), and where each output bit comes from (rule R73).
-/
namespace Sys2Proof.Safety

open Sys2Proof.Machine

/-! ### When two formats give the same pair -/

theorem combined_eq_format2_iff {f g : FloatFormat} : combined f g = .format2 ↔ f = g := by
  cases f <;> cases g <;> decide

/-- R69, R74: two formats give the same pair of `v` exactly if the permutation between them leaves `v` as it is. -/
theorem enc_eq_enc_iff {v : Pattern32} {f g : FloatFormat} : enc v f = enc v g ↔ permute (combined f g) v = v := by
  rw [← permute_permute, ← dec_enc_eq_permute]
  refine ⟨fun h => h ▸ dec_enc v g, fun h => ?_⟩
  rw [← enc_dec (enc v f) g, h]

/-- The pairs are pairwise distinct exactly if no permutation but the identity leaves the pattern as it is. -/
theorem encodings_distinct_iff {v : Pattern32} : (∀ f g, f ≠ g → enc v f ≠ enc v g) ↔
    permute .format1 v ≠ v ∧ permute .format4 v ≠ v ∧ permute .format3 v ≠ v := by
  simp only [Ne, enc_eq_enc_iff]
  constructor
  · intro h
    exact ⟨h .format2 .format1 (by decide), h .format2 .format4 (by decide), h .format2 .format3 (by decide)⟩
  · rintro ⟨h1, h4, h3⟩ f g hfg
    cases hc : combined f g with
    | format1 => exact h1
    | format2 => exact absurd (combined_eq_format2_iff.mp hc) hfg
    | format3 => exact h3
    | format4 => exact h4

/-- A pattern that two permutations leave as it is, is left so by their composition. -/
theorem permute_eq_self_of_combined {v : Pattern32} {f g h : FloatFormat} (hcombined : combined f g = h)
    (hf : permute f v = v) (hg : permute g v = v) : permute h v = v := by
  rw [← hcombined, ← permute_permute, hf, hg]

/-- R69: where two of the permutations other than the identity leave a pattern as it is, all pairs are the same. -/
theorem encodings_equal {v : Pattern32}
    (h : permute .format1 v = v ∧ permute .format4 v = v ∨ permute .format1 v = v ∧ permute .format3 v = v ∨
      permute .format4 v = v ∧ permute .format3 v = v) (f g : FloatFormat) : enc v f = enc v g := by
  have all_fixed : permute .format1 v = v ∧ permute .format4 v = v ∧ permute .format3 v = v := by
    rcases h with ⟨h1, h4⟩ | ⟨h1, h3⟩ | ⟨h4, h3⟩
    · exact ⟨h1, h4, permute_eq_self_of_combined rfl h1 h4⟩
    · exact ⟨h1, permute_eq_self_of_combined rfl h1 h3, h3⟩
    · exact ⟨permute_eq_self_of_combined rfl h4 h3, h4, h3⟩
  obtain ⟨h1, h4, h3⟩ := all_fixed
  rw [enc_eq_enc_iff]
  cases combined f g with
  | format1 => exact h1
  | format2 => exact permute_format2 v
  | format3 => exact h3
  | format4 => exact h4

/-- Four bytes in a row are a pattern exactly if they are its four bytes. -/
theorem valueOfBytes_eq_iff {a b c d : Byte} {v : Pattern32} : a ++ b ++ c ++ d = v ↔
    a = v.extractLsb' 24 8 ∧ b = v.extractLsb' 16 8 ∧ c = v.extractLsb' 8 8 ∧ d = v.extractLsb' 0 8 := by
  constructor
  · intro h
    have hbytes : [a, b, c, d] = valueBytes v := (valueBytes_valueOfBytes a b c d).symm.trans (congrArg valueBytes h)
    simpa [valueBytes] using hbytes
  · rintro ⟨rfl, rfl, rfl, rfl⟩
    exact valueOfBytes_slices v

/-- R69, first condition. -/
theorem permute_format1_eq_self_iff {v : Pattern32} : permute .format1 v = v ↔
    v.extractLsb' 24 8 = v.extractLsb' 8 8 ∧ v.extractLsb' 16 8 = v.extractLsb' 0 8 := by
  have bytes : permute .format1 v =
      v.extractLsb' 8 8 ++ v.extractLsb' 0 8 ++ v.extractLsb' 24 8 ++ v.extractLsb' 16 8 := by
    rw [permute_format1, ← lowHalf, ← highHalf, ← highByte_append_lowByte (lowHalf v),
      ← highByte_append_lowByte (highHalf v), join_two_words]
    simp [highByte, lowByte, highHalf, lowHalf, slice_of_slice]
  rw [bytes, valueOfBytes_eq_iff]
  grind

/-- R69, second condition. -/
theorem permute_format4_eq_self_iff {v : Pattern32} : permute .format4 v = v ↔
    v.extractLsb' 24 8 = v.extractLsb' 16 8 ∧ v.extractLsb' 8 8 = v.extractLsb' 0 8 := by
  rw [permute_format4, valueOfBytes_eq_iff]
  grind

/-- R69, third condition. -/
theorem permute_format3_eq_self_iff {v : Pattern32} : permute .format3 v = v ↔
    v.extractLsb' 24 8 = v.extractLsb' 0 8 ∧ v.extractLsb' 16 8 = v.extractLsb' 8 8 := by
  rw [permute_format3, valueOfBytes_eq_iff]
  grind

theorem highHalf_eq_lowHalf_iff {v : Pattern32} : highHalf v = lowHalf v ↔
    v.extractLsb' 24 8 = v.extractLsb' 8 8 ∧ v.extractLsb' 16 8 = v.extractLsb' 0 8 := by
  simp [word_eq_iff, highByte, lowByte, highHalf, lowHalf, slice_of_slice]

/-- Settles O13: each condition says which permutation leaves the pattern as it is. -/
theorem formatsCoincideExactly : Obligations.FormatsCoincideExactly := by
  intro v
  simp only [← permute_format1_eq_self_iff, ← permute_format4_eq_self_iff, ← permute_format3_eq_self_iff]
  refine ⟨enc_eq_enc_iff, enc_eq_enc_iff, enc_eq_enc_iff, enc_eq_enc_iff, enc_eq_enc_iff, enc_eq_enc_iff,
    permute_format1_eq_self_iff.trans highHalf_eq_lowHalf_iff.symm, encodings_distinct_iff, encodings_equal,
    ?_, ?_, ?_, ?_, ?_⟩
  · rintro rfl
    exact encodings_distinct_iff.mpr (by decide)
  · rintro rfl
    exact ⟨rfl, rfl, rfl, rfl⟩
  · rintro rfl
    exact ⟨rfl, rfl, rfl, rfl⟩
  · rintro rfl
    exact ⟨rfl, rfl, rfl, rfl⟩
  · rintro rfl
    exact ⟨rfl, rfl, rfl, rfl⟩

/-! ### Where the output bits come from -/

/-- R73: every output bit is a copy of one input bit, and every input bit is copied once. -/
def CopiesBits (wiring : Pattern32 → Pattern32) : Prop :=
  ∃ source : Fin 32 → Fin 32, Function.Bijective source ∧
    ∀ (v : Pattern32) (j : Fin 32), (wiring v).getLsbD j = v.getLsbD (source j)

theorem CopiesBits.comp {wiring wiring' : Pattern32 → Pattern32} (h : CopiesBits wiring) (h' : CopiesBits wiring') :
    CopiesBits (wiring ∘ wiring') := by
  obtain ⟨source, hbijective, hcopies⟩ := h
  obtain ⟨source', hbijective', hcopies'⟩ := h'
  exact ⟨source' ∘ source, hbijective'.comp hbijective, fun v j => (hcopies (wiring' v) j).trans (hcopies' v (source j))⟩

/-- The bit position in the other half. -/
def acrossHalves (j : Fin 32) : Fin 32 := ⟨if j.val < 16 then j + 16 else j - 16, by split <;> omega⟩

/-- The bit position in the other byte of the same half. -/
def acrossBytes (j : Fin 32) : Fin 32 := ⟨if j.val % 16 < 8 then j + 8 else j - 8, by split <;> omega⟩

theorem acrossHalves_involutive : Function.Involutive acrossHalves := by
  rw [Function.Involutive]
  decide

theorem acrossBytes_involutive : Function.Involutive acrossBytes := by
  rw [Function.Involutive]
  decide

/-- The exchange of words takes each bit from the other half. -/
theorem copiesBits_permute_format1 : CopiesBits (permute .format1) := by
  refine ⟨acrossHalves, acrossHalves_involutive.bijective, fun v j => ?_⟩
  rw [permute_format1, BitVec.getLsbD_append, acrossHalves]
  by_cases h : j.val < 16
  · simp [h, Nat.add_comm]
  · have : j.val - 16 < 16 := by omega
    simp [h, this]

theorem getLsbD_bswap16 (w : Word16) {i : Nat} (hi : i < 16) :
    (bswap16 w).getLsbD i = w.getLsbD (if i < 8 then i + 8 else i - 8) := by
  rw [bswap16, BitVec.getLsbD_append, lowByte, highByte]
  by_cases h : i < 8
  · simp [h, Nat.add_comm]
  · have : i - 8 < 8 := by omega
    simp [h, this]

/-- The exchange of bytes takes each bit from the other byte of its half. -/
theorem copiesBits_permute_format4 : CopiesBits (permute .format4) := by
  refine ⟨acrossBytes, acrossBytes_involutive.bijective, fun v j => ?_⟩
  have halves : permute .format4 v = bswap16 (highHalf v) ++ bswap16 (lowHalf v) := rfl
  have slice_bit (start i : Nat) (hi : i < 16) : (v.extractLsb' start 16).getLsbD i = v.getLsbD (start + i) := by
    simp [hi]
  rw [halves, BitVec.getLsbD_append, acrossBytes]
  by_cases h : j.val < 16
  · rw [if_pos h, getLsbD_bswap16 _ h, lowHalf, slice_bit _ _ (by split <;> omega)]
    exact congrArg v.getLsbD (by simp only; split_ifs <;> omega)
  · rw [if_neg h, getLsbD_bswap16 _ (by omega), highHalf, slice_bit _ _ (by split <;> omega)]
    exact congrArg v.getLsbD (by simp only; split_ifs <;> omega)

/-- R73: a permutation of R74 exchanges words, exchanges bytes, does both, or does nothing. -/
theorem copiesBits_permute (f : FloatFormat) : CopiesBits (permute f) := by
  cases f with
  | format1 => exact copiesBits_permute_format1
  | format2 => exact ⟨id, Function.bijective_id, fun v j => by rw [permute_format2]; rfl⟩
  | format3 =>
    have both : permute .format1 ∘ permute .format4 = permute .format3 := funext fun v => permute_permute _ _ v
    exact both ▸ copiesBits_permute_format1.comp copiesBits_permute_format4
  | format4 => exact copiesBits_permute_format4

/-- Settles O15: both directions are the permutation of the format. -/
theorem outputBitsCopyInputBits : Obligations.OutputBitsCopyInputBits := by
  intro f
  obtain ⟨source, hbijective, hcopies⟩ := copiesBits_permute f
  refine ⟨⟨source, hbijective, hcopies⟩, ⟨source, hbijective, fun p j => ?_⟩⟩
  rw [dec_eq_permute]
  exact hcopies (packed p) j

end Sys2Proof.Safety

/-!
PROOFS. The codec commands: what each answers, its frame, and what every command leaves unchanged (40_codec.md rules R63 to
R66, R70, R71, R75).
-/
namespace Sys2Proof.Safety

open Sys2Proof.Machine

/-! ### All six commands -/

theorem defaultAfter_of_not_setfmt {i : Instr} (h : ∀ f, i ≠ .setfmt f) (d : FloatFormat) : defaultAfter d i = d := by
  rcases defaultAfter_cases d i with hsame | ⟨f, hf, _⟩
  · exact hsame
  · exact absurd hf (h f)

/-- R50: the answer to a DECODE or DECODE.D is a value or INVALID_INPUT, both in the command's row. -/
theorem fitsRow_answerUnder (d : FloatFormat) (i : Instr) : fitsRow i (answerUnder d i) = true := by
  cases i with
  | encode | encodeD | getfmt | setfmt => rfl
  | decode f regs | decodeD regs =>
    match regs with
    | [] | [_] | [_, _] | _ :: _ :: _ :: _ => rfl

/-- Settles O23: what a command leaves is the state with DFMT set and one answer more. -/
theorem commandsChangeOnlyTheirOwn : Obligations.CommandsChangeOnlyTheirOwn := by
  intro i s t hexec
  obtain rfl := exec_next hexec
  refine ⟨?_, fun hother => defaultAfter_of_not_setfmt hother s.dfmt, rfl, rfl, rfl, rfl, answerUnder s.dfmt i, rfl⟩
  rintro f rfl
  rfl

/-- R70: a command that neither reads nor writes DFMT gives one response under every default and leaves the default. -/
theorem exec_withDefault {i : Instr} (hreads : readsDefault i = false) (hwrites : ∀ f, i ≠ .setfmt f) (s : State)
    (d : FloatFormat) : exec i (s.writeDfmt d) = .next ((s.writeDfmt d).respond i (answerUnder s.dfmt i)) := by
  rw [exec_eq, State.writeDfmt_dfmt, writeDfmt_writeDfmt, defaultAfter_of_not_setfmt hwrites,
    answerUnder_of_not_readsDefault hreads d s.dfmt]

/-- Settles O25: the response is the one under the state's own default. -/
theorem explicitFormsIgnoreDefault : Obligations.ExplicitFormsIgnoreDefault := fun s =>
  ⟨fun f v => ⟨_, exec_withDefault (i := .encode f v) rfl nofun s⟩,
    fun f regs => ⟨_, exec_withDefault (i := .decode f regs) rfl nofun s⟩⟩

/-- Settles O28: the response is `answerUnder`'s, which is in the command's row. -/
theorem everyCommandAnswersItsRow : Obligations.EveryCommandAnswersItsRow := fun i s =>
  ⟨_, _, exec_eq i s, rfl, fitsRow_answerUnder s.dfmt i, rfl⟩

/-! ### Each codec command -/

theorem exec_encode (f : FloatFormat) (v : Pattern32) (s : State) :
    exec (.encode f v) s = .next (s.respond (.encode f v) (.pair (enc v f))) := rfl

theorem exec_encodeD (v : Pattern32) (s : State) :
    exec (.encodeD v) s = .next (s.respond (.encodeD v) (.pair (enc v s.dfmt))) := rfl

theorem exec_decode (f : FloatFormat) (regs : List Word16) (s : State) :
    exec (.decode f regs) s = .next (s.respondDecoded (.decode f regs) regs f) := rfl

theorem exec_decodeD (regs : List Word16) (s : State) :
    exec (.decodeD regs) s = .next (s.respondDecoded (.decodeD regs) regs s.dfmt) := rfl

/-- R45: FMT is the low bits of an explicit form's command byte. -/
theorem commandByte_encode (f : FloatFormat) : commandByte (.encode f) = 0x10#8 + (formatCode f).setWidth 8 := by
  cases f <;> rfl

theorem commandByte_decode (f : FloatFormat) : commandByte (.decode f) = 0x20#8 + (formatCode f).setWidth 8 := by
  cases f <;> rfl

/-- R42: the register words of a frame, each high byte first. -/
theorem wordsBytes_eq_flatMap (regs : List Word16) :
    wordsBytes regs = regs.flatMap fun w => [w.extractLsb' 8 8, w.extractLsb' 0 8] := by
  induction regs with
  | nil => rfl
  | cons w regs ih => rw [wordsBytes, ih, wordBytes, List.flatMap_cons]

/-- R63: no format moves a bit of the two patterns whose bits are all the same. -/
theorem enc_zero (f : FloatFormat) : enc 0x00000000#32 f = ⟨0x0000#16, 0x0000#16⟩ := by
  cases f <;> rfl

theorem enc_allOnes (f : FloatFormat) : enc 0xFFFFFFFF#32 f = ⟨0xFFFF#16, 0xFFFF#16⟩ := by
  cases f <;> rfl

/-- Settles O17: the pair is `Enc`'s, and the frame is the command byte and the bytes of the value. -/
theorem encodeAnswersEncodedPair : Obligations.EncodeAnswersEncodedPair := by
  intro s fmt value
  refine ⟨exec_encode fmt value s, ?_, rfl, enc_zero fmt, enc_allOnes fmt, rfl, rfl⟩
  rw [encode, commandByte_encode, valueBytes]

/-- Settles O18: after a reset whose strap presents no name the default is the fallback. -/
theorem encodeDAnswersUnderDefault : Obligations.EncodeDAnswersUnderDefault := by
  intro s value
  refine ⟨exec_encodeD value s, rfl, rfl, rfl, fun hdfmt => by rw [hdfmt]; rfl, fun sig hnone => ?_⟩
  have hdfmt : (State.afterReset sig).dfmt = .format1 := by
    rw [State.afterReset_dfmt, resolveDefault_of_no_name hnone]
  have hexec := exec_encodeD value (State.afterReset sig)
  rw [hdfmt] at hexec
  exact hexec

/-- Settles O19, by the two things a DECODE can do. -/
theorem decodeAnswersDecodedValue : Obligations.DecodeAnswersDecodedValue := by
  intro s fmt regs
  refine ⟨?_, fun hlength => ?_, fun _ => ?_, rfl, rfl, rfl, rfl⟩
  · rintro r0 r1 rfl
    rw [exec_decode, respondDecoded_two]
    rfl
  · rw [exec_decode, respondDecoded_wrong_length _ _ _ hlength]
    rfl
  · rw [encode, commandByte_decode, regsBytes, wordsBytes_eq_flatMap]

/-- Settles O20, as O19 with DFMT for the format. -/
theorem decodeDAnswersUnderDefault : Obligations.DecodeDAnswersUnderDefault := by
  intro s regs
  refine ⟨?_, fun hlength => ?_, fun _ => ?_, rfl, fun hdfmt => by rw [hdfmt]; rfl, rfl, rfl⟩
  · rintro r0 r1 rfl
    rw [exec_decodeD, respondDecoded_two]
    rfl
  · rw [exec_decodeD, respondDecoded_wrong_length _ _ _ hlength]
    rfl
  · rw [encode, regsBytes, wordsBytes_eq_flatMap]
    rfl

end Sys2Proof.Safety

/-!
PROOFS. The default format: what reset makes of the strap, the two commands that report and replace the default, and what a
command that reads it sees (41_default_format.md rules R79 to R85).
-/
namespace Sys2Proof.Safety

open Sys2Proof.Machine

/-! ### The latest SETFMT -/

@[simp] theorem commandEvents_append (requests later : List (Nat × Instr)) :
    commandEvents (requests ++ later) = commandEvents requests ++ commandEvents later :=
  List.map_append

/-- A request goes into the search for the latest SETFMT as its own effect on the default. -/
theorem latestSetfmt_cons (d : FloatFormat) (host : Nat) (i : Instr) (requests : List (Nat × Instr)) :
    latestSetfmt d ((host, i) :: requests) = latestSetfmt (defaultAfter d i) requests := by
  cases i with
  | setfmt f => simp [latestSetfmt, defaultAfter, List.getLast?_cons]
  | encode | encodeD | decode | decodeD | getfmt => rfl

/-- Hosts that issue well-formed requests to a block that has been reset meet their duties. -/
theorem dutiesMet_commandEvents (sig : CfgSignals) {requests : List (Nat × Instr)} (hwf : ∀ r ∈ requests, r.2.wf = true) :
    dutiesMet .ready sig (commandEvents requests) = true := by
  refine dutiesMet_of_commands sig fun e he => ?_
  obtain ⟨r, hr, rfl⟩ := List.mem_map.mp he
  exact ⟨r.1, encode r.2, r.2, rfl, decodeFrame_encode (hwf r hr)⟩

/-- R84: what follows well-formed requests is answered from the default that their latest SETFMT leaves. -/
theorem answersFrom_commandEvents_append (d : FloatFormat) (sig : CfgSignals) {requests : List (Nat × Instr)}
    (hwf : ∀ r ∈ requests, r.2.wf = true) (evs : List Event) :
    answersFrom d sig (commandEvents requests ++ evs) =
      answersFrom d sig (commandEvents requests) ++ answersFrom (latestSetfmt d requests) sig evs := by
  induction requests generalizing d with
  | nil => rfl
  | cons request requests ih =>
    obtain ⟨host, i⟩ := request
    obtain ⟨hi, hrest⟩ := List.forall_mem_cons.mp hwf
    simp [answersFrom, decodeFrame_encode hi, ih _ hrest, latestSetfmt_cons]

/-- R84, for any last command: after a reset and any well-formed requests it answers under the operand of the latest SETFMT, or
under the resolved strap. -/
theorem runPort_reset_then_commands (s : State) {requests : List (Nat × Instr)} {host : Nat} {i : Instr}
    (hwf : ∀ r ∈ requests, r.2.wf = true) (hi : i.wf = true) :
    ∃ t, runPort { s with port := .reset :: (commandEvents requests ++ commandEvents [(host, i)]) } = .next t ∧
      t.answered.getLast? =
        some ⟨host, i, answerUnder (latestSetfmt (resolveDefault s.strap.sample) requests) i⟩ := by
  have hduties : dutiesMet .ready s.strap (commandEvents requests ++ commandEvents [(host, i)]) = true := by
    rw [← commandEvents_append]
    refine dutiesMet_commandEvents s.strap fun r hr => ?_
    rcases List.mem_append.mp hr with hearlier | hlast
    · exact hwf r hearlier
    · rw [List.mem_singleton.mp hlast]
      exact hi
  obtain ⟨t, hrun, hanswered, _, _⟩ := runsToReference_of_dutiesMet
    (s := { s with port := .reset :: (commandEvents requests ++ commandEvents [(host, i)]) }) hduties
  have hlast (d : FloatFormat) :
      answersFrom d s.strap (commandEvents [(host, i)]) = [⟨host, i, answerUnder d i⟩] := by
    simp [commandEvents, answersFrom, decodeFrame_encode hi]
  refine ⟨t, hrun, ?_⟩
  rw [hanswered, answersFrom, answersFrom_commandEvents_append _ _ hwf, hlast, ← List.append_assoc, List.getLast?_concat]

/-- Settles O51: the three commands that read the default, each as the last one after a reset. -/
theorem readAfterWrite : Obligations.ReadAfterWrite := by
  intro s requests host hwf d inputs
  refine ⟨runPort_reset_then_commands s hwf rfl, fun v => ?_, fun a b => ?_⟩
  · rw [enc_eq_encTable]
    exact runPort_reset_then_commands s hwf rfl
  · rw [dec_eq_decTable]
    exact runPort_reset_then_commands s hwf rfl

/-! ### What reset makes of the strap, and nothing else -/

/-- R83: where the strap presents no name the block comes out of reset with the fallback. -/
theorem afterReset_dfmt_of_no_name {sig : CfgSignals} (h : ∀ f, sig.sample ≠ .present (formatName f)) :
    (State.afterReset sig).dfmt = .format1 := by
  rw [State.afterReset_dfmt, resolveDefault_of_no_name h]

/-- Settles O45: both resets leave FORMAT_1, and a command's answer and effect depend on no more than DFMT. -/
theorem fallbackCannotBeDetected : Obligations.FallbackCannotBeDetected := by
  intro sig named i hnone hnamed
  have hsame : resolveDefault sig.sample = resolveDefault named.sample := by
    rw [resolveDefault_of_no_name hnone, hnamed, resolveDefault_formatName]
  exact ⟨_, _, exec_eq i _, exec_eq i _, by simp [hsame], by simp [hsame]⟩

/-- R85: every command commutes with a change of the strap. -/
theorem exec_driveStrap {i : Instr} {s t : State} (h : exec i s = .next t) (sig : CfgSignals) :
    exec i (s.driveStrap sig) = .next (t.driveStrap sig) := by
  rw [exec_next h, exec_eq]
  rfl

/-- Settles O46: the step that drives the strap, and the commands, which commute with it. -/
theorem strapIsConsultedByResetOnly : Obligations.StrapIsConsultedByResetOnly :=
  ⟨fun _ _ _ => step_strap, fun i s sig => ⟨_, exec_eq i s, exec_driveStrap (exec_eq i s) sig⟩⟩

/-- Settles O43: a name has eight bytes, so a string of nine bytes is none; `format_3` is compared byte for byte. -/
theorem resolveDefaultMatchesExactly : Obligations.ResolveDefaultMatchesExactly := by
  refine ⟨rfl, rfl, rfl, rfl, rfl, resolveDefault_formatName, fun bytes hnone => ?_, fun bytes hlength f hname => ?_,
    by decide, resolveDefault_of_length_ne (by decide)⟩
  · exact resolveDefault_of_no_name fun f hf => hnone f (Cfg.present.inj hf)
  · exact hlength (hname ▸ formatName_length f)

/-! ### GETFMT and SETFMT -/

theorem exec_getfmt (s : State) : exec .getfmt s = .next (s.respond .getfmt (.fmt s.dfmt)) := rfl

theorem exec_setfmt (f : FloatFormat) (s : State) :
    exec (.setfmt f) s = .next ((s.writeDfmt f).respond (.setfmt f) .ack) := rfl

/-- R45: FMT is the low bits of SETFMT's command byte. -/
theorem commandByte_setfmt (f : FloatFormat) : commandByte (.setfmt f) = 0x40#8 + (formatCode f).setWidth 8 := by
  cases f <;> rfl

/-- R50: the byte after the STATUS of GETFMT's response is the format's code. -/
theorem frame_fmt (f : FloatFormat) : (Response.fmt f).frame = [0x00#8, (formatCode f).setWidth 8] := by
  cases f <;> rfl

/-- Settles O21: after a reset whose strap presents no name the default it answers is the fallback. -/
theorem getfmtAnswersDefault : Obligations.GetfmtAnswersDefault := by
  intro s
  refine ⟨exec_getfmt s, rfl, frame_fmt s.dfmt, fun hdfmt => by rw [hdfmt]; rfl, fun sig hnone => ?_⟩
  have hexec := exec_getfmt (State.afterReset sig)
  rw [afterReset_dfmt_of_no_name hnone] at hexec
  exact hexec

/-- Settles O22: the ENCODE.D that follows reads the operand. -/
theorem setfmtReplacesDefault : Obligations.SetfmtReplacesDefault := by
  intro s fmt
  refine ⟨exec_setfmt fmt s, by rw [encode, commandByte_setfmt], rfl, ?_⟩
  rintro rfl
  refine ⟨rfl, rfl, fun t hset => ?_⟩
  have hdfmt : t.dfmt = .format4 := by
    rw [exec_next hset]
    rfl
  refine ⟨_, exec_encodeD _ t, ?_⟩
  rw [lastResponse_respond, hdfmt]
  rfl

end Sys2Proof.Safety

/-!
PROOFS. INVALID_INPUT, the one error: when it is answered and what it leaves (60_exceptions.md rules R91 to R94), and the step
without an input (rule R97).
-/
namespace Sys2Proof.Safety

open Sys2Proof.Machine

/-- R91, R92: SETFMT alone writes DFMT, and it has no register sequence; so the error leaves no more than its answer. -/
theorem exec_wrongLength {i : Instr} (h : wrongLength i = true) (s : State) :
    exec i s = .next (s.raiseInvalidInput i) := by
  have hother : ∀ f, i ≠ .setfmt f := by
    rintro f rfl
    cases h
  rw [exec_eq, defaultAfter_of_not_setfmt hother, answerUnder_eq_invalidInput_iff.mpr h]
  rfl

/-- R94: what a command answers and sets is read off DFMT, which an error before it has left alone. -/
theorem exec_after_raiseInvalidInput (bad i : Instr) (s : State) :
    exec i (s.raiseInvalidInput bad) =
      .next (((s.raiseInvalidInput bad).writeDfmt (defaultAfter s.dfmt i)).respond i (answerUnder s.dfmt i)) :=
  exec_eq i (s.raiseInvalidInput bad)

/-- Settles O26: the last response is the answer to the command just performed. -/
theorem invalidInputLeavesNoTrace : Obligations.InvalidInputLeavesNoTrace := by
  intro i s t hexec
  refine ⟨?_, fun hwrong => ⟨?_, rfl⟩⟩
  · rw [exec_next hexec, lastResponse_respond, Option.some.injEq, answerUnder_eq_invalidInput_iff]
  · exact Host.Outcome.next.inj (hexec.symm.trans (exec_wrongLength hwrong s))

/-- Settles O27: with and without the error before it, the command answers under the same default and adds that one answer. -/
theorem nextCommandAfterErrorIsNormal : Obligations.NextCommandAfterErrorIsNormal := by
  intro bad i s hwrong
  refine ⟨_, _, _, exec_wrongLength hwrong s, exec_after_raiseInvalidInput bad i s, exec_eq i s, ?_, rfl, ?_⟩
  · rw [lastResponse_respond, lastResponse_respond]
  · simp

/-- Settles O38. -/
theorem nothingHappensWithoutInput : Obligations.NothingHappensWithoutInput := fun _ => step_idle

end Sys2Proof.Safety

/-!
PROOFS. Reset, and commands that follow upon one another (70_reset_and_hazards.md rules R107, R109, R110, R113, R115, R116).
-/
namespace Sys2Proof.Safety

open Sys2Proof.Machine

/-! ### Reset -/

/-- R52: while `CFG_PRESENT` is 0 the string is not selected, whatever it is. -/
theorem sample_of_not_present {sig : CfgSignals} (h : sig.present = false) : sig.sample = .absent := by
  simp [CfgSignals.sample, h]

/-- R109: a reset overwrites DFMT without reading it. -/
@[simp] theorem applyReset_writeDfmt (s : State) (d : FloatFormat) : (s.writeDfmt d).applyReset = s.applyReset := rfl

/-- Settles O37: both inputs are refused at the reset input, whatever the phase. -/
theorem overlappingResetIsRefused : Obligations.OverlappingResetIsRefused := fun _ _ =>
  ⟨fun _ _ => step_commandDuringReset, fun _ => step_strapDuringReset_moved⟩

/-- Settles O39: the port is consumed and `applyReset` writes the other two fields. -/
theorem resetLoadsTheResolvedStrap : Obligations.ResetLoadsTheResolvedStrap := fun _ _ => step_reset

/-- Settles O40: what the reset leaves is the same with DFMT overwritten first. -/
theorem resetDiscardsTheEarlierDefault : Obligations.ResetDiscardsTheEarlierDefault := by
  intro s d rest hport
  have hstep : step (s.writeDfmt d) = .next ((s.consume rest).writeDfmt d).applyReset := step_reset hport
  rw [applyReset_writeDfmt] at hstep
  exact ⟨_, step_reset hport, hstep⟩

/-- Settles O57: the strap is followed first, but presents what it presented; with `CFG_PRESENT` 0 that is no string, and the
default is the fallback. -/
theorem resetIgnoresUnselectedStrapSignals : Obligations.ResetIgnoresUnselectedStrapSignals := by
  intro s sig rest hport
  have hsame (hsample : sig.sample = s.strap.sample) :
      step s = .next { s with port := rest, strap := sig, dfmt := resolveDefault s.strap.sample, phase := .ready } := by
    rw [step_strapDuringReset_same hport hsample, ← hsample]
    rfl
  refine ⟨hsame, fun hafter hbefore => ?_⟩
  have habsent : s.strap.sample = .absent := sample_of_not_present hbefore
  rw [hsame ((sample_of_not_present hafter).trans habsent.symm), habsent]
  rfl

/-! ### One command after another -/

/-- Settles O33: the state SETFMT leaves has its operand as DFMT, and any command answers under DFMT. -/
theorem setfmtIsInForceForTheNextCommand : Obligations.SetfmtIsInForceForTheNextCommand := fun f i s =>
  ⟨_, _, exec_setfmt f s, exec_eq i _, lastResponse_respond _ i (answerUnder f i)⟩

/-- Settles O16: two words decode to a value under any format, and `Dec` under `g` is the permutation `P_g` of the packed
pair. -/
theorem wrongFormatPermutesSilently : Obligations.WrongFormatPermutesSilently := by
  refine ⟨fun s v f g => ?_, rfl⟩
  rw [exec_decode, respondDecoded_two, dec_enc_eq_permute]
  rfl

/-! ### Every command is answered -/

/-- R50, R115: every answer of the reference is in its command's row, by induction on the inputs. -/
theorem answersFrom_fitsRow (d : FloatFormat) (sig : CfgSignals) (evs : List Event) :
    ∀ x ∈ answersFrom d sig evs, fitsRow x.request x.response = true := by
  induction evs generalizing d sig with
  | nil => nofun
  | cons e rest ih =>
    cases e with
    | command host frame =>
      cases hdecode : decodeFrame frame with
      | error reason => simp [answersFrom, hdecode]
      | ok i =>
        rw [answersFrom, hdecode]
        exact List.forall_mem_cons.mpr ⟨fitsRow_answerUnder d i, ih (defaultAfter d i) sig⟩
    | reset => exact ih (resolveDefault sig.sample) sig
    | strap sig' => exact ih d sig'
    | commandDuringReset host frame => nofun
    | strapDuringReset sig' => exact ih (resolveDefault sig'.sample) sig'

/-- Settles O52: the run ends with the answers of the reference, which are the requests issued, each in its row. -/
theorem everyCommandIsAnsweredOnceInOrder : Obligations.EveryCommandIsAnsweredOnceInOrder := by
  intro s hduties
  obtain ⟨t, hrun, hanswered, _, _⟩ := runsToReference_of_dutiesMet hduties
  exact ⟨t, answersFrom s.dfmt s.strap s.port, hrun, hanswered, answersFrom_requests hduties,
    answersFrom_fitsRow s.dfmt s.strap s.port⟩

end Sys2Proof.Safety

/-!
PROOFS. The base case of the invariant `answersLawful`: the record after a reset (log 2).
-/
namespace Sys2Proof.Safety

open Sys2Proof.Machine

/-- While nothing has been answered, no answer can be unlawful. -/
theorem answersLawful_of_answered_eq_nil {s : State} (h : s.answered = []) : answersLawful s := fun x hx =>
  absurd (h ▸ hx) (List.not_mem_nil (a := x))

/-- Settles O47: the record after a reset is empty, whatever the strap (`State.afterReset_answered`). -/
theorem answersLawfulAfterReset : Obligations.AnswersLawfulAfterReset := fun sig =>
  answersLawful_of_answered_eq_nil (State.afterReset_answered sig)

end Sys2Proof.Safety
